-- ==== Sys2Proof/Word.lean ====
section
/-! DEFINITION. The word types of the Vondis 610 and their plainest arithmetic: bytes on the line, the 32-bit tick,
cue tags, sequences, and the numbers of voices, phrases, pages, blocks and notes. -/

namespace Sys2Proof

/-- One byte on RXD or TXD. -/
abbrev Byte := BitVec 8

/-- A two-byte field, or a 16-bit count that wraps. -/
abbrev Half := BitVec 16

/-- A tick value: the tick counter is 32 bits wide and wraps (00_scope.md, Conventions; R105). -/
abbrev Tick := BitVec 32

/-- A cue tag, 1 to 65535; 0 names no cue (00_scope.md, Conventions). -/
abbrev Tag := BitVec 16

/-- A voice number: 0 to 5 synth voices, 6 the stream voice (R27). -/
abbrev VoiceId := Fin 7

/-- A phrase id, which is the slot number (R49). -/
abbrev PhraseId := Fin 32

/-- A step page of the pool (R54). -/
abbrev PageId := Fin 64

/-- A sample block of the stream pool (R124). -/
abbrev BlockId := Fin 32

/-- A stream slot (R123). -/
abbrev StreamSlotId := Fin 2

/-- A trigger slot (R144). -/
abbrev TriggerId := Fin 4

/-- A note number, the index into the pitch map (R89). -/
abbrev Note := Fin 128

/-- The low byte of a number. -/
abbrev byteOf (n : Nat) : Byte := BitVec.ofNat 8 n

/-- The low two bytes of a number. -/
abbrev halfOf (n : Nat) : Half := BitVec.ofNat 16 n

end Sys2Proof
end

