-- ==== Sys2Proof/Syntax.lean ====
section
/-! DEFINITION. The commands of the part: one constructor for each row of spec/opcode_table.json. A request row carries
the request tag (the frame's NUM) and the bytes of the request body after its code, as the host sent them; an event row
carries what names the event (a voice, a slot, a tag, a line) and the levels it samples. -/

namespace Sys2Proof

/-- A trigger line (R143). -/
inductive TrgLine where
  | trg0
  | trg1
  deriving DecidableEq, Repr

/-- The strap levels, true for high: BAUD1, BAUD0 and OMODE, sampled at every reset (00_scope.md pin list; R103, R171). -/
structure Straps where
  baud1 : Bool
  baud0 : Bool
  omode : Bool
  deriving DecidableEq, Repr

/-- The levels of the input lines, true for high, as one advance of the tick counter samples them (R101, R115, R143; log
entry 5). -/
structure Lines where
  trg0 : Bool
  trg1 : Bool
  sync : Bool
  muten : Bool
  deriving DecidableEq, Repr

/-- The commands, in the order of spec/opcode_table.json. -/
inductive Instr where
  /-- Power-on reset with the straps as sampled (R171). -/
  | powerOnReset (straps : Straps)
  /-- RESETN returns high after a pin reset was taken, straps as sampled (R172). -/
  | pinReset (straps : Straps)
  /-- The reset that the end of a SYSTEM.RESET FULL reply brings, straps as sampled (R169). -/
  | softReset (straps : Straps)
  | linkOpen (num : Byte) (fields : List Byte)
  | status (num : Byte) (fields : List Byte)
  /-- SYSTEM.RESET whose scope byte is AUDIO; `rest` is what follows the scope byte, [] in a frame of the right length. -/
  | systemResetAudio (num : Byte) (rest : List Byte)
  /-- SYSTEM.RESET whose scope byte is FULL; `rest` as above. -/
  | systemResetFull (num : Byte) (rest : List Byte)
  | reportSelect (num : Byte) (fields : List Byte)
  | reportAck (num : Byte) (fields : List Byte)
  | cuePlay (num : Byte) (fields : List Byte)
  | cueStop (num : Byte) (fields : List Byte)
  | cueCut (num : Byte) (fields : List Byte)
  | cueAdjust (num : Byte) (fields : List Byte)
  | cueQuery (num : Byte) (fields : List Byte)
  | phraseBegin (num : Byte) (fields : List Byte)
  | phraseAdd (num : Byte) (fields : List Byte)
  | phraseEnd (num : Byte) (fields : List Byte)
  | phraseDrop (num : Byte) (fields : List Byte)
  | phraseInfo (num : Byte) (fields : List Byte)
  | mapWrite (num : Byte) (fields : List Byte)
  | mapRead (num : Byte) (fields : List Byte)
  | mapRestore (num : Byte) (fields : List Byte)
  | outputSet (num : Byte) (fields : List Byte)
  | clockSet (num : Byte) (fields : List Byte)
  | clockBar (num : Byte) (fields : List Byte)
  | clockRead (num : Byte) (fields : List Byte)
  | streamOpen (num : Byte) (fields : List Byte)
  | streamData (num : Byte) (fields : List Byte)
  | streamEnd (num : Byte) (fields : List Byte)
  | streamAbort (num : Byte) (fields : List Byte)
  | triggerArm (num : Byte) (fields : List Byte)
  | triggerDisarm (num : Byte) (fields : List Byte)
  /-- A frame in hand is found bad, or a character arrives with its stop bit low (R158, R159). -/
  | frameDiscard
  | frameAbandon
  | replySent
  | reportFrameSent
  /-- An advance of the tick counter, with the line levels it samples (R105). -/
  | tickAdvance (lines : Lines)
  | dueEvent
  /-- The wait deadline of the WAITING entry with this tag is reached (R13). -/
  | waitDeadline (tag : Tag)
  | allocationPass
  | handoffComplete (voice : VoiceId)
  | releaseComplete (voice : VoiceId)
  | rateCountStep (voice : VoiceId)
  | stepEnd (voice : VoiceId)
  | gateRunsOut (voice : VoiceId)
  | duckStep
  | starveLimit (slot : StreamSlotId)
  | internalBeatEdge
  | syncEdge
  | syncLoss
  | silenceTimeout
  | retransmissionTimer
  | firingEvent (line : TrgLine)
  | outputSample
  | blockUsedUp
  | noiseShift (voice : VoiceId)
  | pinResetTaken
  | byteReceived (byte : Byte)
  deriving DecidableEq, Repr

end Sys2Proof
end

