-- ==== Sys2Proof/Config.lean ====
section
/-! DEFINITION. What the data sheet fixes for the part: its capacities, limits and identity. The spec leaves no value
of this part undefined after a command, so there is no free value here (INVENTORY.md, What the manual leaves open). -/

namespace Sys2Proof.Config

/-- The schedule holds at most 48 entries (R5). -/
def scheduleEntries : Nat := 48
/-- 32 phrase slots (R49). -/
def phraseSlots : Nat := 32
/-- 64 pages of steps (R54). -/
def stepPages : Nat := 64
/-- 16 step cells in a page (R53). -/
def pageCells : Nat := 16
/-- A phrase holds at most 256 steps (R58). -/
def maxSteps : Nat := 256
/-- 7 voices (R27). -/
def voiceCount : Nat := 7
/-- 2 stream slots (R123). -/
def streamSlots : Nat := 2
/-- 32 stream blocks (R124). -/
def streamBlocks : Nat := 32
/-- The credit mark of R134. -/
def creditMark : Nat := 8
/-- The starve limit of R136, in ticks. -/
def starveLimit : Nat := 2000
/-- 4 trigger slots (R144). -/
def triggerSlots : Nat := 4
/-- The report queue holds at most 32 reports (R173). -/
def reportQueue : Nat := 32
/-- The number of reports at which a further report is counted as lost (R176). -/
def reportRoom : Nat := 31
/-- At most 4 reports are in flight (R173). -/
def inFlightReports : Nat := 4
/-- The retransmission timer of R178, in ticks. -/
def retransmitTicks : Nat := 250
/-- The retry count at which retransmission is exhausted (R179). -/
def maxRetries : Nat := 3
/-- The reply cache holds at most 8 entries (R162). -/
def cacheEntries : Nat := 8
/-- At most 2 replies are pending (R161). -/
def pendingReplyLimit : Nat := 2
/-- The start byte of a frame (R155). -/
def startByte : Byte := 0xC3#8
/-- LEN is at most 200 (R155). -/
def maxBody : Nat := 200
/-- The gap count at which a frame in hand is abandoned (R159). -/
def gapLimit : Nat := 21
/-- Voice clocks between two output samples (chapter 5, introduction). -/
def clocksPerSample : Nat := 64
/-- Duck amount moves by 1 when the duck count reaches 8 (R100). -/
def duckTicks : Nat := 8
/-- A fast release lowers the level by 4 at each tick advance (R37). -/
def fastStep : Nat := 4
/-- The part code of the LINK.OPEN reply (R166). -/
def partCode : Nat := 610
/-- The revision of the LINK.OPEN reply (R166). -/
def revision : Nat := 1
/-- The subscription mask after a reset: every kind except BEAT (R175, R190). -/
def resetMask : Half := 0x1FF7#16
/-- The flag of REPORTS_LOST, always set (R175, R190). -/
def lostFlag : Half := 0x1000#16
/-- The flags the mask layout names, bits 0 to 12 (11.6 REPORT.SELECT). -/
def namedFlags : Half := 0x1FFF#16
/-- The longest run of steps: the rest of the top phrase, the rest of one called phrase, the steps of the next pass
before its first timed step, and the steps of a called phrase before its first (R73). A bound for the recursion. -/
def runFuel : Nat := 1280
/-- A bound on the events one tick leaves outstanding, for the recursion of TICK_ADVANCE (log entry 3). -/
def settleFuel : Nat := 4096

end Sys2Proof.Config
end

