-- ==== Sys2Proof/Machine/Types.lean ====
section
/-! DEFINITION. The records each block of the part holds (chapters 1 to 10), as plain data. -/

namespace Sys2Proof.Machine

/-! ### Cues (chapter 1) -/

/-- Waveforms (11.2). -/
inductive Shape where
  | square
  | pulse25
  | pulse12
  | noise
  deriving DecidableEq, Repr

/-- What a cue plays (R1). -/
inductive Source where
  | phrase (id : PhraseId)
  | tone (note : Note) (duration : Nat) (shape : Shape)
  | noise (note : Note) (duration : Nat)
  | stream (id : Byte)
  deriving DecidableEq, Repr

/-- The start field (R1, R7). -/
inductive Start where
  | now
  | atTick (tick : Tick)
  | after (delta : Nat)
  deriving DecidableEq, Repr

/-- The quantize field (R1, R8). -/
inductive Quantize where
  | off
  | beat
  | bar
  deriving DecidableEq, Repr

/-- CUE_ENDED reasons (10.5, 11.2). -/
inductive EndReason where
  | finished
  | stopped
  | cut
  | stolen
  | choked
  | late
  | noVoice
  | underrun
  | aborted
  | retriggered
  | linkLost
  | reset
  deriving DecidableEq, Repr

/-- The attack and release fields of a cue or header, in ticks per level (R1, R49). -/
structure Rates where
  attack : Nat
  release : Nat
  deriving DecidableEq, Repr

/-- The host-given fields of a CUE.PLAY, and of a trigger template, as they were sent (R1, R144). -/
structure Template where
  tag : Tag
  source : Source
  priority : Nat
  group : Nat
  volume : Nat
  start : Start
  quantize : Quantize
  window : Nat
  repeats : Nat
  exclusive : Bool
  duck : Bool
  rates : Option Rates
  deriving DecidableEq, Repr

/-- A cue record (R1). -/
structure Cue where
  tag : Tag
  source : Source
  priority : Nat
  group : Nat
  volume : Nat
  start : Start
  quantize : Quantize
  window : Nat
  repeats : Nat
  exclusive : Bool
  duck : Bool
  /-- Present for TONE and NOISE only (R1, R2). -/
  rates : Option Rates
  acceptance : BitVec 32
  due : Tick
  deadline : Option Tick
  endReason : Option EndReason
  deriving DecidableEq, Repr

/-- The states of a cue held in the schedule (R3). -/
inductive EntryState where
  | scheduled
  | aligning
  | waiting
  deriving DecidableEq, Repr

/-- A schedule entry (R5). -/
structure Entry where
  cue : Cue
  state : EntryState
  deriving DecidableEq, Repr

/-- The Cue Scheduler (chapter 1). -/
structure Scheduler where
  /-- The schedule, in order (R5). -/
  entries : List Entry
  /-- The live-tag set, in order of joining (R4). -/
  live : List Tag
  /-- The acceptance number counter (R1). -/
  counter : BitVec 32
  deriving DecidableEq, Repr

/-! ### Voices (chapters 2, 4 and 5) -/

/-- Voice states (R29). -/
inductive VoiceState where
  | idle
  | active
  | ending
  | handoff
  deriving DecidableEq, Repr

/-- Release modes (R27). -/
inductive ReleaseMode where
  | normal
  | fast
  deriving DecidableEq, Repr

/-- Envelope phases (R27, R71). -/
inductive Phase where
  | attack
  | hold
  | release
  | silent
  deriving DecidableEq, Repr

/-- A voice's envelope (R27, R70). -/
structure Envelope where
  phase : Phase
  level : Nat
  target : Nat
  rateCount : Nat
  deriving DecidableEq, Repr

/-- A position in the top phrase, of PHRASE cues (R70). -/
structure TopPosition where
  phrase : PhraseId
  step : Nat
  nestedFault : Bool
  deriving DecidableEq, Repr

/-- A position in a called phrase, while inside a CALL (R70). -/
structure CallPosition where
  phrase : PhraseId
  step : Nat
  savedShape : Shape
  deriving DecidableEq, Repr

/-- The player context of a synth voice (R70). -/
structure Player where
  top : Option TopPosition
  call : Option CallPosition
  stepTicks : Option Nat
  gateTicks : Option Nat
  stepVolume : Option Nat
  repeatsLeft : Nat
  shape : Shape
  period : Nat
  legato : Bool
  rates : Rates
  deriving DecidableEq, Repr

/-- The oscillator and noise register of a synth voice (R94). `clocks` counts the voice clocks already run since the
latest output sample (log entry 6). -/
structure Oscillator where
  phaseCount : Nat
  noise : BitVec 15
  clocks : Nat
  deriving DecidableEq, Repr

/-- A current cue with its start tick (R27). -/
structure Current where
  cue : Cue
  startTick : Tick
  deriving DecidableEq, Repr

/-- A voice record (R27). -/
structure Voice where
  state : VoiceState
  current : Option Current
  releaseMode : Option ReleaseMode
  incoming : Option Cue
  env : Envelope
  player : Option Player
  osc : Option Oscillator
  deriving DecidableEq, Repr

/-- The Voice Allocator (chapter 2). -/
structure Allocator where
  voices : Vector Voice 7
  /-- Allocation passes asked for and not yet taken: asks are not merged and not lost (R30). -/
  passes : Nat
  deriving DecidableEq, Repr

/-! ### Phrases (chapter 3) -/

/-- Steps (R52), each field as the request gave it (R59). -/
inductive Step where
  | note (note : Note) (duration volume gate : Nat)
  | rest (duration : Nat)
  | call (phrase : PhraseId)
  | mark (value : Byte)
  | shape (shape : Shape)
  deriving DecidableEq, Repr

/-- Phrase slot states (R49). -/
inductive PhraseState where
  | empty
  | building
  | ready
  deriving DecidableEq, Repr

/-- A phrase header (R49). -/
structure Header where
  shape : Shape
  rates : Rates
  tempoRelative : Bool
  deriving DecidableEq, Repr

/-- A phrase slot (R49). The steps stand in the pool's cells (R53). -/
structure PhraseSlot where
  state : PhraseState
  header : Option Header
  stepCount : Nat
  pages : List PageId
  refs : Nat
  deriving DecidableEq, Repr

/-- A page of 16 step cells; a cell no step was ever stored in holds none (R53, R54; log
entry 13). -/
abbrev Page := Vector (Option Step) 16

/-- The Phrase Store (chapter 3). -/
structure PhraseStore where
  slots : Vector PhraseSlot 32
  pool : Vector Page 64
  freePages : List PageId
  build : Option PhraseId
  deriving DecidableEq, Repr

/-! ### Mixer and output (chapter 5) -/

/-- Output modes (R102). -/
inductive OutputMode where
  | bridge
  | single
  deriving DecidableEq, Repr

/-- How one of the 1024 parts of an output period are driven (R103): AOUTP is high for the first `pHigh` parts and low
for the rest; AOUTN is low for the first 1024 − `nHigh` parts and high for the rest. -/
structure PwmPeriod where
  pHigh : Nat
  nHigh : Nat
  deriving DecidableEq, Repr

/-- The Mixer and Output (chapter 5). -/
structure Mixer where
  masterVolume : Nat
  masterFactor : Nat
  duckDepth : Nat
  duckAmount : Nat
  duckCount : Nat
  softMute : Bool
  /-- The latest sample of MUTEN, true for high (R101). -/
  muten : Bool
  outputMode : OutputMode
  /-- The output value V of the latest output sample (R99). -/
  value : Int
  /-- The output period in progress on AOUTP and AOUTN (R103). -/
  pwm : PwmPeriod
  deriving DecidableEq, Repr

/-! ### Time base (chapter 6) -/

/-- Beat sources (R107). -/
inductive ClockSource where
  | internal
  | external
  deriving DecidableEq, Repr

/-- Sync states (R107). -/
inductive SyncState where
  | internal
  | seeking
  | locked
  | fallback
  deriving DecidableEq, Repr

/-- A line qualifier: qualified level and last sample, true for high (R115, R143). -/
structure Qualifier where
  level : Bool
  last : Bool
  deriving DecidableEq, Repr

/-- A beat edge that an advance of the tick counter calls for and that is not yet taken (R111, R117, R119). -/
inductive BeatAsk where
  | internal
  | sync
  deriving DecidableEq, Repr

/-- The Time Base and Beat Clock (R105, R107). -/
structure TimeBase where
  tick : Tick
  source : ClockSource
  sync : SyncState
  configuredBeat : Nat
  effectiveBeat : Nat
  lengthPending : Bool
  configuredBar : Nat
  barInForce : Nat
  barRestart : Bool
  beatInBar : Nat
  barNumber : Half
  lastBeat : Option Tick
  interval : Nat
  lossReference : Option Tick
  previousSync : Option Tick
  syncLine : Qualifier
  beatAsk : Option BeatAsk
  deriving DecidableEq, Repr

/-! ### Streams (chapter 7) -/

/-- The states of an open stream (R123). -/
inductive StreamState where
  | filling
  | ready
  | playing
  | starved
  deriving DecidableEq, Repr

/-- Underrun policies (R123). -/
inductive UnderrunPolicy where
  | pause
  | finish
  deriving DecidableEq, Repr

/-- A read position (R123, R132). -/
structure ReadPosition where
  index : Nat
  holdCount : Nat
  deriving DecidableEq, Repr

/-- An open stream slot (R123); a CLOSED slot holds nothing. -/
structure OpenStream where
  state : StreamState
  id : Byte
  /-- The rate code: 6000, 8000, 12000, 24000 samples/s as 0, 1, 2, 3 (11.2). -/
  rate : Fin 4
  prefill : Nat
  policy : UnderrunPolicy
  expected : Half
  last : Bool
  filled : List BlockId
  bound : Option Tag
  /-- Present in PLAYING and STARVED. -/
  read : Option ReadPosition
  starve : Option Nat
  deriving DecidableEq, Repr

/-- A block that holds data (R124); its length is the length of the data. -/
structure Block where
  sequence : Half
  data : List Byte
  deriving DecidableEq, Repr

/-- The Stream Unit (chapter 7). -/
structure StreamUnit where
  slots : Vector (Option OpenStream) 2
  blocks : Vector (Option Block) 32
  freeBlocks : List BlockId
  deriving DecidableEq, Repr

/-! ### Triggers (chapter 8) -/

/-- The edge field of a slot (R144). -/
inductive EdgeKind where
  | fall
  | rise
  | both
  deriving DecidableEq, Repr

/-- Slot modes (R144). -/
inductive TriggerMode where
  | once
  | repeating
  deriving DecidableEq, Repr

/-- Retrigger policies (R144). -/
inductive RetriggerPolicy where
  | ignore
  | restart
  deriving DecidableEq, Repr

/-- An armed trigger slot (R144); a disarmed slot holds nothing. -/
structure Armed where
  line : TrgLine
  edge : EdgeKind
  mode : TriggerMode
  policy : RetriggerPolicy
  template : Template
  deriving DecidableEq, Repr

/-- A trigger line: its qualifier, and the edge qualified at the latest advance whose firing event is not yet taken,
true for rising (R143, R147). -/
structure TriggerLine where
  qualifier : Qualifier
  edge : Option Bool
  deriving DecidableEq, Repr

/-- The Trigger Unit (chapter 8). -/
structure TriggerUnit where
  trg0 : TriggerLine
  trg1 : TriggerLine
  slots : Vector (Option Armed) 4
  deriving DecidableEq, Repr

/-! ### Reports (chapter 10) -/

/-- Trigger refusal reasons (11.2). -/
inductive RefusalReason where
  | busy
  | notReady
  | scheduleFull
  deriving DecidableEq, Repr

/-- Phrase fault reasons (11.2). -/
inductive FaultReason where
  | absent
  | nested
  deriving DecidableEq, Repr

/-- The thirteen report kinds with their fields (10.5, R190). -/
inductive ReportKind where
  | cueStarted (tag : Tag) (voice : VoiceId)
  | cueEnded (tag : Tag) (reason : EndReason) (voice : Option VoiceId)
  | mark (tag : Tag) (value : Byte)
  | beat (beatInBar : Nat) (barNumber : Half)
  | syncLost (reference : Tick)
  | syncRegained
  | streamCredit (free : Nat)
  | streamStarved (id : Byte)
  | streamResumed (id : Byte)
  | triggerFired (slot : TriggerId) (tag : Tag)
  | triggerRefused (slot : TriggerId) (tag : Tag) (reason : RefusalReason)
  | phraseFault (tag : Tag) (phrase : PhraseId) (step : Nat) (reason : FaultReason)
  | reportsLost (count : Nat)
  deriving DecidableEq, Repr

/-- A report record (R173). `onLine` says that the frame on TXD is this report's latest frame, so that the notice of
its end finds the report only while it is still queued and not renumbered (R178). -/
structure Report where
  sequence : Byte
  kind : ReportKind
  tick : Tick
  sent : Bool
  frameDue : Bool
  lastSent : Option Tick
  onLine : Bool
  deriving DecidableEq, Repr

/-- The Report Unit (chapter 10). -/
structure ReportUnit where
  queue : List Report
  nextSequence : Byte
  retry : Nat
  mask : Half
  deriving DecidableEq, Repr

/-! ### The serial link (chapter 9) -/

/-- Session states (R165). -/
inductive Session where
  | closed
  | opened
  | stalled
  deriving DecidableEq, Repr

/-- Orphan policies (R166). -/
inductive OrphanPolicy where
  | continue
  | silence
  deriving DecidableEq, Repr

/-- Reset causes (R171). -/
inductive ResetCause where
  | power
  | pin
  | soft
  deriving DecidableEq, Repr

/-- Serial rates (R171). -/
inductive SerialRate where
  | r57600
  | r115200
  | r230400
  | r460800
  deriving DecidableEq, Repr

/-- The receiver: the bytes of the frame in hand ([] while hunting) and the gap count (9.2). -/
structure Receiver where
  held : List Byte
  gap : Nat
  deriving DecidableEq, Repr

/-- A pending reply (R163): the NUM of its request, its body, and whether its end brings the SOFT reset of R169. -/
structure PendingReply where
  num : Byte
  body : List Byte
  full : Bool
  deriving DecidableEq, Repr

/-- A reply cache entry (R162). -/
structure CacheEntry where
  tag : Byte
  code : Byte
  scope : Option Byte
  body : List Byte
  deriving DecidableEq, Repr

/-- The transmitter (R164): idle with TXD high, or busy with the bytes of one frame (log entry 22). -/
inductive Transmitter where
  | idle
  | reply (frame : List Byte)
  | report (frame : List Byte)
  deriving DecidableEq, Repr

/-- The Link Controller (chapter 9). -/
structure Link where
  session : Session
  receiver : Receiver
  transmitter : Transmitter
  replies : List PendingReply
  cache : List CacheEntry
  discards : Nat
  overruns : Nat
  orphan : OrphanPolicy
  silenceTimeout : Nat
  silenceCount : Nat
  resetCause : ResetCause
  firstOpen : Bool
  serialRate : SerialRate
  /-- The SOFT reset has been performed at the end of a SYSTEM.RESET FULL reply (R169), and the levels its strap sampling
  found are still to be given (log entry 11). -/
  strapsDue : Bool
  deriving DecidableEq, Repr

end Sys2Proof.Machine
end

