-- ==== Sys2Proof/Machine/ResetValues.lean ====
section
/-! DEFINITION. What each block holds right after a reset, from the reset rule of each chapter: R25, R47, R67, R88,
R93, R104, R121, R141, R153, R171 and R184. -/

namespace Sys2Proof.Machine

/-- The envelope of an IDLE voice: SILENT at level 0 (R47, R88). -/
def Envelope.quiet : Envelope :=
  { phase := .silent, level := 0, target := 0, rateCount := 0 }

/-- An IDLE voice (R27, R47, log entry 14): no cue, no player context, no oscillator. -/
def Voice.idle : Voice :=
  { state := .idle, current := none, releaseMode := none, incoming := none, env := Envelope.quiet, player := none,
    osc := none }

/-- An EMPTY phrase slot (R49). -/
def PhraseSlot.empty : PhraseSlot :=
  { state := .empty, header := none, stepCount := 0, pages := [], refs := 0 }

/-- Every step page, in ascending order. -/
def allPages : List PageId := List.finRange 64

/-- Every sample block, in ascending order. -/
def allBlocks : List BlockId := List.finRange 32

/-- The default periods of notes 0 to 127 (R90): 768 000 / (440 × 2^((n − 69) / 12)) rounded, at most 65535. -/
def defaultPeriods : List Nat :=
    [65535, 65535, 65535, 65535, 65535, 65535, 65535, 62695,
     59176, 55855, 52720, 49761, 46968, 44332, 41844, 39495,
     37278, 35186, 33211, 31347, 29588, 27927, 26360, 24880,
     23484, 22166, 20922, 19748, 18639, 17593, 16606, 15674,
     14794, 13964, 13180, 12440, 11742, 11083, 10461, 9874,
     9320, 8797, 8303, 7837, 7397, 6982, 6590, 6220,
     5871, 5541, 5230, 4937, 4660, 4398, 4151, 3918,
     3698, 3491, 3295, 3110, 2935, 2771, 2615, 2468,
     2330, 2199, 2076, 1959, 1849, 1745, 1647, 1555,
     1468, 1385, 1308, 1234, 1165, 1100, 1038, 980,
     925, 873, 824, 778, 734, 693, 654, 617,
     582, 550, 519, 490, 462, 436, 412, 389,
     367, 346, 327, 309, 291, 275, 259, 245,
     231, 218, 206, 194, 183, 173, 163, 154,
     146, 137, 130, 122, 116, 109, 103, 97,
     92, 87, 82, 77, 73, 69, 65, 61]

/-- The default contents of the pitch map (R90). -/
def defaultPitchMap : Vector Nat 128 :=
  Vector.ofFn fun n : Note => defaultPeriods.getD n.val 0

/-- The scheduler after every reset (R25). -/
def Scheduler.afterReset : Scheduler :=
  { entries := [], live := [], counter := 0 }

/-- The allocator after every reset (R47): every voice IDLE, no pass asked. -/
def Allocator.afterReset : Allocator :=
  { voices := Vector.replicate 7 Voice.idle, passes := 0 }

/-- The phrase store after a power-on reset (R67). -/
def PhraseStore.afterPowerOn : PhraseStore :=
  { slots := Vector.replicate 32 PhraseSlot.empty, pool := Vector.replicate 64 (Vector.replicate 16 none),
    freePages := allPages, build := none }

/-- A phrase slot after a pin or SOFT reset: a READY phrase is kept, any other is EMPTY, and every reference count is 0
(R68, steps 1 to 3). -/
def PhraseSlot.afterPin (p : PhraseSlot) : PhraseSlot :=
  if p.state = .ready then { p with refs := 0 } else PhraseSlot.empty

/-- The phrase store after a pin or SOFT reset (R68): the free page list is every page of no READY phrase, ascending. -/
def PhraseStore.afterPin (ps : PhraseStore) : PhraseStore :=
  let slots := ps.slots.map PhraseSlot.afterPin
  { slots := slots, pool := ps.pool,
    freePages := allPages.filter fun g => !(slots.toList.any fun p => p.pages.contains g), build := none }

/-- The output mode the OMODE strap gives: BRIDGE when low, SINGLE when high (R103). -/
def strapMode (straps : Straps) : OutputMode :=
  if straps.omode then .single else .bridge

/-- The serial rate that BAUD1 and BAUD0 give (R171). -/
def strapRate (straps : Straps) : SerialRate :=
  match straps.baud1, straps.baud0 with
  | false, false => .r57600
  | false, true => .r115200
  | true, false => .r230400
  | true, true => .r460800

/-- How the output value V drives the pins in one output period (R103). -/
def pwmOf (mode : OutputMode) (v : Int) : PwmPeriod :=
  let high := (v + 512).toNat
  match mode with
  | .bridge => { pHigh := high, nHigh := 1024 - high }
  | .single => { pHigh := high, nHigh := 0 }

/-- The mixer after every reset (R104); output starts at V = 0 in the strapped mode (R103, log entry
23). -/
def Mixer.afterReset (straps : Straps) : Mixer :=
  { masterVolume := 24, masterFactor := 0, duckDepth := 6, duckAmount := 0, duckCount := 0, softMute := false,
    muten := true, outputMode := strapMode straps, value := 0, pwm := pwmOf (strapMode straps) 0 }

/-- A line qualifier after every reset: qualified level and last sample high (R115, R143). -/
def Qualifier.afterReset : Qualifier :=
  { level := true, last := true }

/-- The time base after every reset (R121). -/
def TimeBase.afterReset : TimeBase :=
  { tick := 0, source := .internal, sync := .internal, configuredBeat := 500, effectiveBeat := 500,
    lengthPending := false, configuredBar := 4, barInForce := 4, barRestart := false, beatInBar := 1, barNumber := 0,
    lastBeat := none, interval := 0, lossReference := none, previousSync := none, syncLine := Qualifier.afterReset,
    beatAsk := none }

/-- The stream unit after every reset (R141); the free list in ascending order (log entry 12). -/
def StreamUnit.afterReset : StreamUnit :=
  { slots := Vector.replicate 2 none, blocks := Vector.replicate 32 none, freeBlocks := allBlocks }

/-- The trigger unit after every reset (R153). -/
def TriggerUnit.afterReset : TriggerUnit :=
  { trg0 := { qualifier := Qualifier.afterReset, edge := none },
    trg1 := { qualifier := Qualifier.afterReset, edge := none }, slots := Vector.replicate 4 none }

/-- The report unit after every reset (R184). -/
def ReportUnit.afterReset : ReportUnit :=
  { queue := [], nextSequence := 0, retry := 0, mask := Config.resetMask }

/-- The link after every reset, with its cause (R171). -/
def Link.afterReset (cause : ResetCause) (straps : Straps) : Link :=
  { session := .closed, receiver := { held := [], gap := 0 }, transmitter := .idle, replies := [], cache := [],
    discards := 0, overruns := 0, orphan := .continue, silenceTimeout := 0, silenceCount := 0, resetCause := cause,
    firstOpen := true, serialRate := strapRate straps, strapsDue := false }

end Sys2Proof.Machine
end

