-- ==== Sys2Proof/Machine/State.lean ====
section
/-! DEFINITION. The state of the part: what each block holds, the pins it drives or holds, and the queue of commands
that wait. Plain data throughout. -/

namespace Sys2Proof.Machine

/-- Why the block would stop with a fault. The data sheet gives none: no command ends a run, so no one raises a fault
and the type has no constructor (log entry 2). -/
inductive Fault where
  deriving DecidableEq, Repr

/-- Why a command would have no meaning here. -/
inductive Refusal where
  /-- A command not modelled yet, by its mnemonic; raised by an arm of `exec` only. Safe: the model stops where the
  part goes on. No arm raises it now. -/
  | notModelled (mnemonic : String)
  deriving DecidableEq, Repr

/-- The part. -/
structure State where
  /-- The part is held in reset: RESETN has been low for 2 ms and has not returned high (R172). -/
  inReset : Bool
  /-- The strap levels sampled at the latest reset (R103, R171). -/
  straps : Straps
  sched : Scheduler
  alloc : Allocator
  store : PhraseStore
  /-- The pitch map, a period in voice clocks for each note (R89). -/
  pitchMap : Vector Nat 128
  mixer : Mixer
  time : TimeBase
  streams : StreamUnit
  triggers : TriggerUnit
  reports : ReportUnit
  link : Link
  /-- The commands that wait, first in, first out. -/
  pending : List Instr
  deriving DecidableEq, Repr

/-- The straps of `State.reset`: all low (log entry 1). -/
def State.resetStraps : Straps :=
  { baud1 := false, baud0 := false, omode := false }

/-- The part right after a power-on reset (R25, R47, R67, R93, R104, R121, R141, R153, R171, R184), with no command
waiting. -/
def State.reset : State :=
  { inReset := false, straps := State.resetStraps, sched := Scheduler.afterReset, alloc := Allocator.afterReset,
    store := PhraseStore.afterPowerOn, pitchMap := defaultPitchMap, mixer := Mixer.afterReset State.resetStraps,
    time := TimeBase.afterReset, streams := StreamUnit.afterReset, triggers := TriggerUnit.afterReset,
    reports := ReportUnit.afterReset, link := Link.afterReset .power State.resetStraps, pending := [] }

end Sys2Proof.Machine
end

