-- ==== Sys2Proof/Machine/Ops.lean ====
section
/-! DEFINITION. The operations every block shares: the time comparison, offering reports, asking for allocation passes
and due events, writing a voice record, reference counts, and finding cues by tag. -/

namespace Sys2Proof.Machine

/-! ### Time (R106) -/

/-- A tick value `t` is reached at `now` when (now − t) mod 2^32 is less than 2^31 (R106). -/
def reached (now t : Tick) : Bool :=
  (now - t).toNat < 2 ^ 31

/-- `a` is earlier than `b`, and `b` later than `a`, when (b − a) mod 2^32 is non-zero and less than 2^31 (R106). -/
def earlier (a b : Tick) : Bool :=
  b - a != 0 && (b - a).toNat < 2 ^ 31

/-- The tick counter (R105). -/
abbrev State.now (s : State) : Tick := s.time.tick

/-! ### Reports (R174, R176) -/

/-- The kind codes of R190. -/
def ReportKind.code : ReportKind → Nat
  | .cueStarted .. => 1
  | .cueEnded .. => 2
  | .mark .. => 3
  | .beat .. => 4
  | .syncLost .. => 5
  | .syncRegained => 6
  | .streamCredit .. => 7
  | .streamStarved .. => 8
  | .streamResumed .. => 9
  | .triggerFired .. => 10
  | .triggerRefused .. => 11
  | .phraseFault .. => 12
  | .reportsLost .. => 13

/-- A REPORTS_LOST record (R176). -/
def Report.isLost (r : Report) : Bool :=
  match r.kind with
  | .reportsLost _ => true
  | _ => false

/-- A record's count raised by 1, stopping at 65535, when it is a REPORTS_LOST (R176). -/
def Report.countUp (r : Report) : Report :=
  match r.kind with
  | .reportsLost n => { r with kind := .reportsLost (min (n + 1) 65535) }
  | _ => r

/-- A newly admitted record (R176): sent no, frame due yes. -/
def Report.fresh (seq : Byte) (kind : ReportKind) (tick : Tick) : Report :=
  { sequence := seq, kind := kind, tick := tick, sent := false, frameDue := true, lastSent := none, onLine := false }

/-- Append a record with the next sequence, which is then raised by 1 modulo 256 (R176). -/
def ReportUnit.append (u : ReportUnit) (kind : ReportKind) (tick : Tick) : ReportUnit :=
  { u with queue := u.queue ++ [Report.fresh u.nextSequence kind tick], nextSequence := u.nextSequence + 1 }

/-- The newest record is a REPORTS_LOST with sent no, so that a further loss is counted in it (R176). -/
def ReportUnit.merges (u : ReportUnit) : Bool :=
  match u.queue.getLast? with
  | some r => r.isLost && !r.sent
  | none => false

/-- Admission (R176): a queue of fewer than 31 takes the report; a fuller one counts it in its newest REPORTS_LOST, or at
31 takes a new REPORTS_LOST. (A queue of 32 always merges, log entry 21.) -/
def ReportUnit.takeIn (u : ReportUnit) (kind : ReportKind) (tick : Tick) : ReportUnit :=
  if u.queue.length < Config.reportRoom then u.append kind tick
  else if u.merges then { u with queue := u.queue.dropLast ++ (u.queue.getLast?.map Report.countUp).toList }
  else if u.queue.length = Config.reportRoom then u.append (.reportsLost 1) tick
  else u

/-- The flag of a kind in the subscription mask: bit (code − 1) (R175, R190). -/
def ReportUnit.subscribed (u : ReportUnit) (kind : ReportKind) : Bool :=
  u.mask.getLsbD (kind.code - 1)

/-- Taking an offer (R174): not created when its flag is clear, otherwise admitted. -/
def ReportUnit.offer (u : ReportUnit) (kind : ReportKind) (tick : Tick) : ReportUnit :=
  if u.subscribed kind then u.takeIn kind tick else u

/-- A block offers a report, stamped with the tick of the event (R174, R105). -/
def State.offer (s : State) (kind : ReportKind) : State :=
  { s with reports := s.reports.offer kind s.now }

/-! ### Asks for an allocation pass (R30) -/

/-- Ask for one allocation pass; asks are not merged and not lost (R30). -/
def State.askPass (s : State) : State :=
  { s with alloc := { s.alloc with passes := s.alloc.passes + 1 } }

/-! ### Voice records, and the duck target that follows voice 6 (R27, R100) -/

/-- The voice numbers in order. -/
def allVoices : List VoiceId := [0, 1, 2, 3, 4, 5, 6]

/-- The synth voice numbers in order (R28). -/
def synthVoices : List VoiceId := [0, 1, 2, 3, 4, 5]

/-- Voice 6, the stream voice (R27). -/
def streamVoice : VoiceId := 6

/-- A voice record (R27). -/
abbrev State.voice (s : State) (v : VoiceId) : Voice := s.alloc.voices[v]

/-- The duck target (R100): the duck depth while voice 6 is ACTIVE with a current cue whose duck flag is yes, 0 otherwise. -/
def duckTarget (depth : Nat) (v6 : Voice) : Nat :=
  match v6.state, v6.current with
  | .active, some c => if c.cue.duck then depth else 0
  | _, _ => 0

/-- The duck target of the part as it stands (R100). -/
def State.duckTarget (s : State) : Nat :=
  Sys2Proof.Machine.duckTarget s.mixer.duckDepth (s.voice streamVoice)

/-- The duck count has reached 8 and the amount is to move (R100). -/
def Mixer.duckDue (m : Mixer) : Bool :=
  m.duckCount == Config.duckTicks

/-- The duck amount moves by 1 toward the target and the count is set to 0 (R100). -/
def Mixer.duckMove (m : Mixer) (target : Nat) : Mixer :=
  { m with
    duckAmount :=
      if m.duckAmount < target then m.duckAmount + 1
      else if target < m.duckAmount then m.duckAmount - 1
      else m.duckAmount
    duckCount := 0 }

/-- A change of the duck target sets the duck count to 0 (R100); a move the old target has called for is made first
(log entry 19). -/
def State.followDuck (old new : State) : State :=
  if new.duckTarget = old.duckTarget then new
  else if old.mixer.duckDue then { new with mixer := new.mixer.duckMove old.duckTarget }
  else { new with mixer := { new.mixer with duckCount := 0 } }

/-- Write a voice record. Voice 6 carries the duck target with it (R100). -/
def State.putVoice (s : State) (v : VoiceId) (r : Voice) : State :=
  s.followDuck { s with alloc := { s.alloc with voices := s.alloc.voices.set v r } }

/-! ### Phrase slots and reference counts (R49, R53, R63) -/

/-- A phrase slot (R49). -/
abbrev State.phrase (s : State) (id : PhraseId) : PhraseSlot := s.store.slots[id]

/-- Write a phrase slot. -/
def PhraseStore.putSlot (ps : PhraseStore) (id : PhraseId) (p : PhraseSlot) : PhraseStore :=
  { ps with slots := ps.slots.set id p }

/-- A reference count is raised by 1 (R63). -/
def State.refUp (s : State) (id : PhraseId) : State :=
  { s with store := s.store.putSlot id { s.phrase id with refs := (s.phrase id).refs + 1 } }

/-- A reference count is lowered by 1 (R63). -/
def State.refDown (s : State) (id : PhraseId) : State :=
  { s with store := s.store.putSlot id { s.phrase id with refs := (s.phrase id).refs - 1 } }

/-- The phrase is READY (R50). -/
def State.phraseReady (s : State) (id : PhraseId) : Bool :=
  (s.phrase id).state == .ready

/-- The header of a slot, where it holds one (R49). -/
def PhraseSlot.theHeader (p : PhraseSlot) : Header :=
  p.header.getD { shape := .square, rates := { attack := 0, release := 0 }, tempoRelative := false }

/-- Step i of a phrase: cell i mod 16 of page list entry i div 16 (R53). -/
def PhraseStore.stepAt (ps : PhraseStore) (p : PhraseSlot) (i : Nat) : Option Step :=
  match p.pages[i / Config.pageCells]? with
  | some g => (ps.pool[g][i % Config.pageCells]?).getD none
  | none => none

/-! ### Streams (R123, R124) -/

/-- A stream slot, none when CLOSED (R123). -/
abbrev State.stream (s : State) (i : StreamSlotId) : Option OpenStream := s.streams.slots[i]

/-- Write a stream slot. -/
def State.putStream (s : State) (i : StreamSlotId) (t : Option OpenStream) : State :=
  { s with streams := { s.streams with slots := s.streams.slots.set i t } }

/-- The slot numbers in order. -/
def allStreamSlots : List StreamSlotId := [0, 1]

/-- The open slot that holds this stream id (R123). -/
def State.openSlot (s : State) (id : Byte) : Option StreamSlotId :=
  allStreamSlots.find? fun i => (s.stream i).any fun t => t.id == id

/-- The slot whose bound cue has this tag (R130). -/
def State.boundSlot (s : State) (tag : Tag) : Option StreamSlotId :=
  allStreamSlots.find? fun i => (s.stream i).any fun t => t.bound == some tag

/-- The free block count (R124). -/
abbrev State.freeCount (s : State) : Nat := s.streams.freeBlocks.length

/-- Offer STREAM_CREDIT when the free count has risen from below 8 to 8 or more (R134). -/
def State.credit (before : Nat) (s : State) : State :=
  if before < Config.creditMark ∧ Config.creditMark ≤ s.freeCount then s.offer (.streamCredit s.freeCount) else s

/-- Append blocks to the tail of the free list; a free block holds no data (R124). -/
def StreamUnit.free (u : StreamUnit) (bs : List BlockId) : StreamUnit :=
  { u with
    freeBlocks := u.freeBlocks ++ bs
    blocks := bs.foldl (fun m (b : BlockId) => m.set b none) u.blocks }

/-- Close the stream in a slot (R138): its blocks are freed, with credit, and the slot becomes CLOSED. The report is
offered after the blocks are freed. -/
def State.closeStream (s : State) (i : StreamSlotId) : State :=
  match s.stream i with
  | some t => State.credit s.freeCount ({ s with streams := s.streams.free t.filled }.putStream i none)
  | none => s

/-! ### Cues by tag (R3, R4) -/

/-- The tag is in the live-tag set (R4). -/
def State.isLive (s : State) (tag : Tag) : Bool :=
  s.sched.live.contains tag

/-- The tag leaves the live-tag set (R4). -/
def State.dropTag (s : State) (tag : Tag) : State :=
  { s with sched := { s.sched with live := s.sched.live.filter (· != tag) } }

/-- Where a live cue is held (R3). -/
inductive Place where
  | entry (e : Entry)
  | incoming (v : VoiceId) (c : Cue)
  | current (v : VoiceId) (c : Current)
  deriving DecidableEq, Repr

/-- The place a voice gives a tag, if any. -/
def State.voicePlace (s : State) (tag : Tag) (v : VoiceId) : Option Place :=
  match (s.voice v).incoming, (s.voice v).current with
  | some c, cur =>
    if c.tag = tag then some (.incoming v c)
    else cur.bind fun k => if k.cue.tag = tag then some (.current v k) else none
  | none, some k => if k.cue.tag = tag then some (.current v k) else none
  | none, none => none

/-- The place that holds the cue with this tag: a tag is held in at most one (R4). -/
def State.place (s : State) (tag : Tag) : Option Place :=
  match s.sched.entries.find? fun e => e.cue.tag == tag with
  | some e => some (.entry e)
  | none => allVoices.findSome? fun v => s.voicePlace tag v

/-! ### The schedule (R5, R6) -/

/-- The record leaves the schedule and the entries behind it close up (R5). -/
def State.dropEntry (s : State) (tag : Tag) : State :=
  { s with sched := { s.sched with entries := s.sched.entries.filter fun e => e.cue.tag != tag } }

/-- A new entry goes immediately before the first SCHEDULED entry whose due tick is later, or to the end (R6). -/
def insertEntry (new : Entry) : List Entry → List Entry
  | [] => [new]
  | e :: rest =>
    if e.state = .scheduled && earlier new.cue.due e.cue.due then new :: e :: rest
    else e :: insertEntry new rest

/-! ### Ending a cue without sounding (R15) -/

/-- A cue's phrase reference is given up, or its bound stream closed (R15 steps 4 and 5, R42 steps 3 and 4). -/
def State.releaseSource (s : State) (c : Cue) : State :=
  match c.source with
  | .phrase id => s.refDown id
  | .tone .. => s
  | .noise .. => s
  | .stream _ =>
    match s.boundSlot c.tag with
    | some i => s.closeStream i
    | none => s

/-- CUE_ENDED is offered, the tag leaves the live-tag set, and the cue's source is released (R15, R42, R4). -/
def State.retire (s : State) (c : Cue) (reason : EndReason) (voice : Option VoiceId) : State :=
  ((s.offer (.cueEnded c.tag reason voice)).dropTag c.tag).releaseSource c

/-- Remove the schedule entry with this tag, without sounding (R15). -/
def State.removeEntry (s : State) (tag : Tag) (reason : EndReason) : State :=
  match s.sched.entries.find? fun e => e.cue.tag == tag with
  | some e => (s.dropEntry tag).retire e.cue reason none
  | none => s

end Sys2Proof.Machine
end

