-- ==== Sys2Proof/Machine/Envelope.lean ====
section
/-! DEFINITION. The envelope of a voice: entries into ATTACK and RELEASE, changes of target, and its movement at a tick
advance (R37, R71, R72, R98). -/

namespace Sys2Proof.Machine

/-- Move toward a target: HOLD at once when the level equals it or the rate of its direction is 0, else ATTACK with rate
count 0 (R71, R72). -/
def Envelope.approach (e : Envelope) (target : Nat) (rates : Rates) : Envelope :=
  if e.level = target then { e with phase := .hold, target := target, rateCount := 0 }
  else if (if e.level < target then rates.attack else rates.release) = 0 then
    { phase := .hold, level := target, target := target, rateCount := 0 }
  else { e with phase := .attack, target := target, rateCount := 0 }

/-- A NOTE start (R77): the level is kept under legato and set to 0 otherwise, and the envelope moves toward the target. -/
def Envelope.startNote (e : Envelope) (legato : Bool) (target : Nat) (rates : Rates) : Envelope :=
  (if legato then e else { e with level := 0 }).approach target rates

/-- RELEASE at a rate, entered by a gate that runs out or a REST: SILENT at once at level 0 or rate 0 (R71, R78, R79). -/
def Envelope.release (e : Envelope) (rate : Nat) : Envelope :=
  if e.level = 0 ∨ rate = 0 then { e with phase := .silent, level := 0, rateCount := 0 }
  else { e with phase := .release, rateCount := 0 }

/-- RELEASE on entry to ENDING in normal release: a rate of 0 lowers the level to 0 at once (R41). -/
def Envelope.finalRelease (e : Envelope) (rate : Nat) : Envelope :=
  { e with phase := .release, level := if rate = 0 then 0 else e.level, rateCount := 0 }

/-- RELEASE on a steal: the fast release begins at the next tick advance (R35, R37). -/
def Envelope.fastRelease (e : Envelope) : Envelope :=
  { e with phase := .release, rateCount := 0 }

/-- A change of the target by CUE.ADJUST (R72, R98). -/
def Envelope.retarget (e : Envelope) (target : Nat) (rates : Rates) : Envelope :=
  match e.phase with
  | .attack => e.approach target rates
  | .hold => if e.level = target then { e with target := target } else e.approach target rates
  | .release => { e with target := target }
  | .silent => { e with target := target }

/-- What a tick advance does before the rate count is compared (R71): in ATTACK and in a RELEASE that is not FAST the rate
count is raised by 1; a FAST release lowers the level by 4, to a floor of 0 (R37). -/
def Envelope.advance (e : Envelope) (mode : Option ReleaseMode) : Envelope :=
  match e.phase with
  | .attack => { e with rateCount := e.rateCount + 1 }
  | .release =>
    if mode = some .fast then { e with level := e.level - Config.fastStep } else { e with rateCount := e.rateCount + 1 }
  | .hold => e
  | .silent => e

/-- The rate count has reached the rate in force, and the level is to move (R71). -/
def Envelope.rateDue (e : Envelope) (mode : Option ReleaseMode) (rates : Rates) : Bool :=
  match e.phase with
  | .attack =>
    (e.level < e.target && e.rateCount == rates.attack) || (e.target < e.level && e.rateCount == rates.release)
  | .release => mode != some .fast && 0 < e.level && e.rateCount == rates.release
  | .hold => false
  | .silent => false

/-- The level moves by 1 and the rate count is set to 0; at the target the phase becomes HOLD, and a release that reaches
0 becomes SILENT unless the cue is ENDING (R71). -/
def Envelope.rateStep (e : Envelope) (ending : Bool) : Envelope :=
  match e.phase with
  | .attack =>
    let level := if e.level < e.target then e.level + 1 else e.level - 1
    { e with level := level, rateCount := 0, phase := if level = e.target then .hold else .attack }
  | .release =>
    { e with level := e.level - 1, rateCount := 0, phase := if e.level ≤ 1 ∧ !ending then .silent else .release }
  | .hold => e
  | .silent => e

/-- The envelope rates of a voice: those of its player, or attack 0 and release 1 for voice 6 (R70, R98). -/
def Voice.rates (r : Voice) : Rates :=
  match r.player with
  | some p => p.rates
  | none => { attack := 0, release := 1 }

/-- The voice's envelope has a rate count step outstanding (R71). -/
def Voice.rateDue (r : Voice) : Bool :=
  r.current.isSome && r.env.rateDue r.releaseMode r.rates

/-- The rate count step of a voice, where one is outstanding (R71). -/
def Voice.rateStep (r : Voice) : Voice :=
  if r.rateDue then { r with env := r.env.rateStep (r.state == .ending) } else r

/-- Stage 1 and 2 of a voice's tick event, up to the comparison of its counts (R71, R74, R98). -/
def Voice.advance (r : Voice) : Voice :=
  if r.current.isSome then
    { r with
      env := r.env.advance r.releaseMode
      player :=
        if r.state = .active then
          r.player.map fun p => { p with stepTicks := p.stepTicks.map (· - 1), gateTicks := p.gateTicks.map (· - 1) }
        else r.player }
  else r

end Sys2Proof.Machine
end

