-- ==== Sys2Proof/Machine/Voices.lean ====
section
/-! DEFINITION. Cues on voices: final release and the end of a cue on a voice, the removal of an incoming cue, and the
choke of a group (R39, R41, R42, R45). -/

namespace Sys2Proof.Machine

/-- The release rate r of a normal final release (R41, R51). -/
def State.finalRate (s : State) (c : Cue) : Nat :=
  match c.source with
  | .phrase id => (s.phrase id).theHeader.rates.release
  | .tone .. => (c.rates.getD { attack := 0, release := 4 }).release
  | .noise .. => (c.rates.getD { attack := 0, release := 4 }).release
  | .stream _ => 1

/-- The reference of the call phrase a player holds is given up (R42 step 3). -/
def State.releaseCall (s : State) (p : Option Player) : State :=
  match p.bind (·.call) with
  | some call => s.refDown call.phrase
  | none => s

/-- The end of a voice's current cue, up to the emptying of its place (R42 steps 1 to 4). -/
def State.endCurrent (s : State) (v : VoiceId) : State :=
  match (s.voice v).current with
  | some k =>
    (((s.offer (.cueEnded k.cue.tag (k.cue.endReason.getD .finished) (some v))).dropTag k.cue.tag).releaseCall
      (s.voice v).player).releaseSource k.cue
  | none => s

/-- The voice becomes IDLE, its context cleared, and an allocation pass is asked (R42 step 5, R30). -/
def State.leaveIdle (s : State) (v : VoiceId) : State :=
  (s.putVoice v Voice.idle).askPass

/-- The whole end of a cue on a voice that takes no incoming cue (R42). -/
def State.endToIdle (s : State) (v : VoiceId) : State :=
  (s.endCurrent v).leaveIdle v

/-- The stream of voice 6's cue is frozen: its starve timer becomes absent (R137). -/
def State.freezeStream (s : State) (v : VoiceId) (tag : Tag) : State :=
  if v = streamVoice then
    match s.boundSlot tag with
    | some i => s.putStream i ((s.stream i).map fun t => { t with starve := none })
    | none => s
  else s

/-- A current cue with its end reason set. -/
def Current.withReason (k : Current) (reason : EndReason) : Current :=
  { k with cue := { k.cue with endReason := some reason } }

/-- Entry to ENDING in normal release (R41): the reason is set, the envelope enters RELEASE at the final rate, and at level
0 the cue ends at once by R42. The player's attack and release rates are replaced by the final release rate (R70). A cue
that is not PLAYING is not changed. -/
def State.enterEnding (s : State) (v : VoiceId) (reason : EndReason) : State :=
  let r := (s.voice v).rateStep
  match r.state, r.current with
  | .active, some k =>
    let rate := s.finalRate k.cue
    let env := r.env.finalRelease rate
    let s' :=
      (s.putVoice v
        { r with
          state := .ending
          releaseMode := some .normal
          current := some (k.withReason reason)
          env := env
          player := r.player.map fun p => { p with rates := { attack := rate, release := rate } } }).freezeStream v
        k.cue.tag
    if env.level = 0 then s'.endToIdle v else s'
  | _, _ => s

/-- Removal of the incoming cue of a HANDOFF voice; the voice goes on in ENDING with the FAST release of its departing
cue (R39, R15). -/
def State.removeIncoming (s : State) (v : VoiceId) (reason : EndReason) : State :=
  match (s.voice v).incoming with
  | some c => (s.putVoice v { s.voice v with state := .ending, incoming := none }).retire c reason none
  | none => s

/-- Whether the choke of an exclusive cue of this group reaches a voice: its cue is PLAYING in that group (R45). -/
def Voice.chokedBy (r : Voice) (group : Nat) : Bool :=
  match r.state, r.current with
  | .active, some k => k.cue.group == group
  | _, _ => false

/-- One voice of a choke (R45). -/
def State.chokeVoice (s : State) (group : Nat) (v : VoiceId) : State :=
  if (s.voice v).chokedBy group then s.enterEnding v .choked else s

/-- The choke of R45: every other PLAYING cue of the starting cue's group enters ENDING, in order of voice number. -/
def State.choke (s : State) (v : VoiceId) (c : Cue) : State :=
  if c.exclusive ∧ c.group ≠ 0 then
    (allVoices.filter (· ≠ v)).foldl (fun s u => s.chokeVoice c.group u) s
  else s

end Sys2Proof.Machine
end

