-- ==== Sys2Proof/Machine/Player.lean ====
section
/-! DEFINITION. The step player (chapter 4): starting a cue on a synth voice, timed and zero-duration steps, CALL, and the
end of the top phrase. -/

namespace Sys2Proof.Machine

/-- Write a voice's player and envelope. -/
def State.putPlayer (s : State) (v : VoiceId) (p : Player) (env : Envelope) : State :=
  s.putVoice v { s.voice v with player := some p, env := env }

/-- The header a player reads for the step in progress: that of the called phrase inside a CALL, else of the top phrase
(R51, R82); for a TONE or NOISE cue, the cue's rates and ticks (R86). -/
def State.stepHeader (s : State) (p : Player) (c : Cue) : Header :=
  match p.call, p.top with
  | some call, _ => (s.phrase call.phrase).theHeader
  | none, some top => (s.phrase top.phrase).theHeader
  | none, none =>
    { shape := p.shape, rates := c.rates.getD { attack := 0, release := 4 }, tempoRelative := false }

/-- The duration of a timed step in ticks (R77). -/
def durationTicks (tempoRelative : Bool) (beatLength value : Nat) : Nat :=
  if tempoRelative then max 1 (value * beatLength / 48) else value

/-- The gate of a NOTE in ticks (R77). -/
def gateTicksOf (duration gate : Nat) : Nat :=
  max 1 (duration * gate / 8)

/-- The envelope target of a NOTE (R72, R77). -/
def noteTarget (stepVolume cueVolume : Nat) : Nat :=
  stepVolume * cueVolume / 15

/-- A REST, or a NOTE whose map entry is 0 (R79, R76); both rates are those of the header (log entry 15). -/
def State.startRest (s : State) (v : VoiceId) (p : Player) (h : Header) (duration : Nat) : State :=
  let e := (s.voice v).env
  s.putPlayer v
    { p with
      stepTicks := some (durationTicks h.tempoRelative s.time.effectiveBeat duration)
      gateTicks := none
      stepVolume := none
      legato := false
      rates := h.rates }
    (e.release h.rates.release)

/-- A NOTE (R76, R77): its period is latched from the pitch map as it stands. -/
def State.startNote (s : State) (v : VoiceId) (p : Player) (c : Cue) (h : Header) (note : Note)
    (duration volume gate : Nat) : State :=
  let period := s.pitchMap[note]
  if period = 0 then s.startRest v p h duration
  else
    let ticks := durationTicks h.tempoRelative s.time.effectiveBeat duration
    let e := (s.voice v).env
    s.putPlayer v
      { p with
        period := period
        stepTicks := some ticks
        gateTicks := some (gateTicksOf ticks gate)
        stepVolume := some volume
        legato := gate == 8
        rates := h.rates }
      (e.startNote p.legato (noteTarget volume c.volume) h.rates)

/-- The player moves on to the step after the one in progress, in the phrase that holds it (R73, R78). -/
def Player.nextStep (p : Player) : Player :=
  match p.call with
  | some call => { p with call := some { call with step := call.step + 1 } }
  | none => { p with top := p.top.map fun t => { t with step := t.step + 1 } }

/-- A return from a CALL at the end of the called phrase (R82). -/
def State.callReturn (s : State) (v : VoiceId) (p : Player) (call : CallPosition) (env : Envelope) : State :=
  (s.refDown call.phrase).putPlayer v { p with call := none, shape := call.savedShape }.nextStep env

/-- A new pass of the top phrase (R85). -/
def State.newPass (s : State) (v : VoiceId) (p : Player) (top : TopPosition) (env : Envelope) : State :=
  s.putPlayer v
    { p with
      top := some { top with step := 0, nestedFault := false }
      shape := (s.phrase top.phrase).theHeader.shape }
    env

/-- A CALL step (R82, R83, R84): entered at top level when its target is READY; skipped otherwise. -/
def State.takeCall (s : State) (v : VoiceId) (p : Player) (c : Cue) (target : PhraseId) (env : Envelope) : State :=
  match p.call, p.top with
  | none, some top =>
    if s.phraseReady target then
      (s.refUp target).putPlayer v
        { p with
          call := some { phrase := target, step := 0, savedShape := p.shape }
          shape := (s.phrase target).theHeader.shape }
        env
    else (s.offer (.phraseFault c.tag top.phrase top.step .absent)).putPlayer v p.nextStep env
  | some call, some top =>
    if top.nestedFault then s.putPlayer v p.nextStep env
    else
      (s.offer (.phraseFault c.tag call.phrase call.step .nested)).putPlayer v
        { p with top := some { top with nestedFault := true } }.nextStep env
  | _, none => s.putPlayer v p.nextStep env

/-- One step of a run: it starts a timed step and the run ends (false), or carries out a zero-duration step and the run
goes on (true) (R73, R76 to R84). -/
def State.carryOut (s : State) (v : VoiceId) (p : Player) (c : Cue) (st : Step) : State × Bool :=
  let env := (s.voice v).env
  match st with
  | .note n d vol g => (s.startNote v p c (s.stepHeader p c) n d vol g, false)
  | .rest d => (s.startRest v p (s.stepHeader p c) d, false)
  | .shape sh => (s.putPlayer v { p with shape := sh }.nextStep env, true)
  | .mark value => ((s.offer (.mark c.tag value)).putPlayer v p.nextStep env, true)
  | .call target => (s.takeCall v p c target env, true)

/-- The player's top step index goes back to the last step of the phrase, which the run has passed. -/
def Player.lastStep (p : Player) : Player :=
  { p with top := p.top.map fun t => { t with step := t.step - 1 } }

/-- The end of the top phrase (R85). DESIGN CHOICE (log entry 29): a FINISHED cue in its final release has no step in
progress, and its top step index, 0 to 255 (R70), is that of the phrase's last step. -/
def State.endPass (s : State) (v : VoiceId) (p : Player) (top : TopPosition) : State × Bool :=
  let env := (s.voice v).env
  match p.repeatsLeft with
  | 0 => (s.newPass v p top env, true)
  | 1 => ((s.putPlayer v p.lastStep env).enterEnding v .finished, false)
  | n + 2 => (s.newPass v { p with repeatsLeft := n + 1 } top env, true)

/-- The next item of a run, at the player's position (R73, R78). -/
def State.runOne (s : State) (v : VoiceId) : State × Bool :=
  match (s.voice v).state, (s.voice v).current, (s.voice v).player with
  | .active, some k, some p =>
    match p.call, p.top with
    | some call, _ =>
      let slot := s.phrase call.phrase
      match if call.step < slot.stepCount then s.store.stepAt slot call.step else none with
      | some st => s.carryOut v p k.cue st
      | none => (s.callReturn v p call (s.voice v).env, true)
    | none, some top =>
      let slot := s.phrase top.phrase
      match if top.step < slot.stepCount then s.store.stepAt slot top.step else none with
      | some st => s.carryOut v p k.cue st
      | none => s.endPass v p top
    | none, none => (s.enterEnding v .finished, false)
  | _, _, _ => (s, false)

/-- A run of steps (R73). The fuel bounds the recursion; a READY phrase's run ends well within it (log entry 24). -/
def State.run : Nat → VoiceId → State → State
  | 0, _, s => s
  | n + 1, v, s =>
    let (s', more) := s.runOne v
    if more then State.run n v s' else s'

/-- The player context of a PHRASE cue at its start (R75). -/
def Player.forPhrase (id : PhraseId) (repeats : Nat) (h : Header) : Player :=
  { top := some { phrase := id, step := 0, nestedFault := false }, call := none, stepTicks := none, gateTicks := none,
    stepVolume := none, repeatsLeft := repeats, shape := h.shape, period := 0, legato := false, rates := h.rates }

/-- The player context of a TONE or NOISE cue at its start (R86). -/
def Player.forNote (shape : Shape) (rates : Rates) : Player :=
  { top := none, call := none, stepTicks := none, gateTicks := none, stepVolume := none, repeatsLeft := 1,
    shape := shape, period := 0, legato := false, rates := rates }

/-- The one NOTE of a TONE or NOISE cue: step volume 15, gate 8, never tempo-relative (R86). -/
def State.startTone (s : State) (v : VoiceId) (c : Cue) (note : Note) (duration : Nat) (shape : Shape) : State :=
  let rates := c.rates.getD { attack := 0, release := 4 }
  let p := Player.forNote shape rates
  (s.putPlayer v p Envelope.quiet).startNote v p c { shape := shape, rates := rates, tempoRelative := false } note duration
    15 8

/-- The player starts a cue that has become PLAYING on a synth voice (R75, R86). -/
def State.startPlayer (s : State) (v : VoiceId) (c : Cue) : State :=
  match c.source with
  | .phrase id =>
    State.run Config.runFuel v
      (s.putPlayer v (Player.forPhrase id c.repeats (s.phrase id).theHeader) Envelope.quiet)
  | .tone n d sh => s.startTone v c n d sh
  | .noise n d => s.startTone v c n d .noise
  | .stream _ => s

/-- The end of a timed step and the run that begins at the next (R78). -/
def State.endStep (s : State) (v : VoiceId) (p : Player) : State :=
  State.run Config.runFuel v
    (s.putPlayer v { p with stepTicks := none, gateTicks := none, stepVolume := none }.nextStep (s.voice v).env)

end Sys2Proof.Machine
end

