-- ==== Sys2Proof/Machine/Streaming.lean ====
section
/-! DEFINITION. Streams in playback (chapter 7): start, use of blocks, starvation and resumption. -/

namespace Sys2Proof.Machine

/-- The hold of a stream: output periods for each sample (R123). -/
def OpenStream.hold (t : OpenStream) : Nat :=
  4 - t.rate.val

/-- The bound cue of a stream is PLAYING on voice 6 (R125, R137). -/
def State.boundPlaying (s : State) (t : OpenStream) : Bool :=
  match (s.voice streamVoice).state, (s.voice streamVoice).current, t.bound with
  | .active, some k, some tag => k.cue.tag == tag
  | _, _, _ => false

/-- The slot of the stream that voice 6's current cue plays (R132). -/
def State.playingSlot (s : State) : Option StreamSlotId :=
  match (s.voice streamVoice).current with
  | some k => s.boundSlot k.cue.tag
  | none => none

/-- The stream of a cue that has become PLAYING on voice 6 starts; with an empty list its data is already at its end
(R131). -/
def State.startStream (s : State) (c : Cue) : State :=
  match s.boundSlot c.tag with
  | some i =>
    match s.stream i with
    | some t =>
      let s' := s.putStream i (some { t with state := .playing, read := some { index := 0, holdCount := 0 } })
      if t.filled = [] then s'.enterEnding streamVoice .finished else s'
    | none => s
  | none => s

/-- A STARVED stream under PAUSE whose bound cue is PLAYING can resume (R136, R137). -/
def State.canResume (s : State) (t : OpenStream) : Bool :=
  t.state == .starved && t.policy == .pause && s.boundPlaying t

/-- A stream resumes (R136); with an empty list its data has ended. -/
def State.resume (s : State) (i : StreamSlotId) (t : OpenStream) : State :=
  let s' :=
    (s.putStream i
      (some { t with state := .playing, starve := none, read := some { index := 0, holdCount := 0 } })).offer
      (.streamResumed t.id)
  if t.filled = [] then s'.enterEnding streamVoice .finished else s'

/-- A stream starves (R135): STREAM_STARVED is offered, and then the underrun policy decides. -/
def State.starve (s : State) (i : StreamSlotId) (t : OpenStream) : State :=
  let at0 : Option ReadPosition := some { index := 0, holdCount := 0 }
  match t.policy with
  | .pause =>
    (s.putStream i (some { t with state := .starved, read := at0, starve := some 0 })).offer (.streamStarved t.id)
  | .finish =>
    ((s.putStream i (some { t with state := .starved, read := at0, starve := none })).offer
      (.streamStarved t.id)).enterEnding streamVoice .underrun

/-- The head block of a filled list and the byte it gives at an index. -/
def State.headBlock (s : State) (t : OpenStream) : Option Block :=
  match t.filled with
  | b :: _ => s.streams.blocks[b]
  | [] => none

/-- The head block's last byte has been held for its full hold: the block is used up at the next output sample
(R132 step 1). -/
def State.usedUp (s : State) (t : OpenStream) : Bool :=
  match t.state, t.read, s.headBlock t with
  | .playing, some r, some b => r.holdCount == t.hold && r.index + 1 == b.data.length
  | _, _, _ => false

/-- The head block is used up (R133): it is freed with credit, and an emptied list ends or starves the stream. -/
def State.useUp (s : State) (i : StreamSlotId) (t : OpenStream) : State :=
  let before := s.freeCount
  let t' := { t with filled := t.filled.tail, read := some { index := 0, holdCount := 0 } }
  let s' := State.credit before ({ s with streams := s.streams.free t.filled.head?.toList }.putStream i (some t'))
  if t'.filled = [] ∧ s'.boundPlaying t' then
    if t.last then s'.enterEnding streamVoice .finished else s'.starve i t'
  else s'

/-- The block of voice 6's stream that has been used up, if one is outstanding (R133). -/
def State.usedUpSlot (s : State) : Option (StreamSlotId × OpenStream) :=
  s.playingSlot.bind fun i => (s.stream i).bind fun t => if s.usedUp t then some (i, t) else none

/-- The use of the head block, where it is outstanding (R133). -/
def State.finishBlock (s : State) : State :=
  match s.usedUpSlot with
  | some (i, t) => s.useUp i t
  | none => s

/-- The sample voice 6 is handed at an output sample, and the stream after it (R132): the byte in hand is finished after
its hold, and a PLAYING stream with a block gives its next byte; otherwise the sample is 128. -/
def State.takeSample (s : State) : Nat × State :=
  match s.playingSlot with
  | some i =>
    match s.stream i with
    | some t =>
      match t.state, t.read, s.headBlock t with
      | .playing, some r, some b =>
        let r' : ReadPosition := if r.holdCount = t.hold then { index := r.index + 1, holdCount := 0 } else r
        ((b.data.getD r'.index 128#8).toNat,
          s.putStream i (some { t with read := some { r' with holdCount := r'.holdCount + 1 } }))
      | _, _, _ => (128, s)
    | none => (128, s)
  | none => (128, s)

end Sys2Proof.Machine
end

