-- ==== Sys2Proof/Machine/Allocation.lean ====
section
/-! DEFINITION. Cues starting on voices, allocation passes, stealing, handoff and immediate ends (chapter 2). -/

namespace Sys2Proof.Machine

/-- The oscillator at a cue's start: phase count 0, every place of the noise register 1 (R94). -/
def Oscillator.fresh : Oscillator :=
  { phaseCount := 0, noise := BitVec.allOnes 15, clocks := 0 }

/-- The voice record of a cue at its start (R33, R38, R94, R98): PLAYING from level 0, start tick now. -/
def Voice.starting (v : VoiceId) (c : Cue) (now : Tick) : Voice :=
  { state := .active, current := some { cue := c, startTick := now }, releaseMode := none, incoming := none,
    env := if v = streamVoice then Envelope.quiet.approach c.volume { attack := 0, release := 1 } else Envelope.quiet,
    player := none, osc := if v = streamVoice then none else some Oscillator.fresh }

/-- A cue becomes PLAYING on a voice (R33, R38): CUE_STARTED is offered, the player or the stream starts, and an exclusive
cue's choke follows (R45, R75). -/
def State.startCue (s : State) (v : VoiceId) (c : Cue) : State :=
  let s' := (s.putVoice v (Voice.starting v c s.now)).offer (.cueStarted c.tag v)
  (if v = streamVoice then s'.startStream c else s'.startPlayer v c).choke v c

/-- The voices of a cue's class (R28). -/
def Source.voices : Source → List VoiceId
  | .phrase _ => synthVoices
  | .tone .. => synthVoices
  | .noise .. => synthVoices
  | .stream _ => [streamVoice]

/-- The lowest-numbered IDLE voice of a cue's class (R33). -/
def State.idleVoice (s : State) (c : Cue) : Option VoiceId :=
  c.source.voices.find? fun v => (s.voice v).state == .idle

/-- A steal candidate for a cue (R34): ACTIVE, with a current cue of strictly lower priority. -/
def State.stealable (s : State) (c : Cue) (v : VoiceId) : Option (VoiceId × Current) :=
  match (s.voice v).state, (s.voice v).current with
  | .active, some k => if k.cue.priority < c.priority then some (v, k) else none
  | _, _ => none

/-- One candidate comes before another already found: lower priority, or the same priority and an earlier start tick
(R34); a tie stays with the lower voice number. -/
def beforeCandidate (a b : Current) : Bool :=
  a.cue.priority < b.cue.priority || (a.cue.priority == b.cue.priority && earlier a.startTick b.startTick)

/-- The choice between the best candidate so far and the next one, in order of voice number (R34). DESIGN CHOICE (log entry
27): where the comparison of start ticks names no earliest, as at exactly 2^31 ticks apart or round a cycle of three, the
candidates are still compared two by two in this order, and one that is not earlier does not displace the one found. -/
def betterCandidate (best : Option (VoiceId × Current)) (next : VoiceId × Current) : Option (VoiceId × Current) :=
  match best with
  | some b => if beforeCandidate next.2 b.2 then some next else some b
  | none => some next

/-- The steal candidate chosen for a cue (R34). -/
def State.candidate (s : State) (c : Cue) : Option VoiceId :=
  ((c.source.voices.filterMap (s.stealable c)).foldl betterCandidate none).map Prod.fst

/-- A cue that leaves the schedule drops its wait deadline (R13, R33, R35). -/
def Cue.placed (c : Cue) : Cue :=
  { c with deadline := none }

/-- The steal of a voice for a waiting cue (R35): the victim enters ENDING, reason STOLEN, release FAST, and the cue becomes
CLAIMED in the incoming place. -/
def State.steal (s : State) (v : VoiceId) (c : Cue) : State :=
  let r := (s.voice v).rateStep
  match r.current with
  | some k =>
    ((s.dropEntry c.tag).putVoice v
      { r with
        state := .handoff
        releaseMode := some .fast
        current := some (k.withReason .stolen)
        incoming := some c.placed
        env := r.env.fastRelease }).freezeStream v k.cue.tag
  | none => s

/-- The cue is a STREAM cue whose bound stream is not READY, and a pass skips it (R32). -/
def State.skips (s : State) (c : Cue) : Bool :=
  match c.source with
  | .stream _ =>
    match s.boundSlot c.tag with
    | some i => !((s.stream i).any fun t => t.state == .ready)
    | none => true
  | _ => false

/-- A pass serves one WAITING cue (R32 to R36): skipped, placed, given a stolen voice, dropped at window 0, or left. -/
def State.serveCue (s : State) (c : Cue) : State :=
  if s.skips c then s
  else
    match s.idleVoice c, s.candidate c with
    | some v, _ => (s.dropEntry c.tag).startCue v c.placed
    | none, some v => s.steal v c
    | none, none => if c.window = 0 then s.removeEntry c.tag .noVoice else s

/-- A pass serves the entry with this tag, if it is still WAITING (R31). -/
def State.serveTag (s : State) (tag : Tag) : State :=
  match s.sched.entries.find? fun e => e.cue.tag == tag with
  | some e => if e.state = .waiting then s.serveCue e.cue else s
  | none => s

/-- Insert an entry in service order, behind those of the same or a higher priority (R31). -/
def insertByPriority (e : Entry) : List Entry → List Entry
  | [] => [e]
  | x :: rest => if x.cue.priority < e.cue.priority then e :: x :: rest else x :: insertByPriority e rest

/-- The order of service of a pass (R31): the WAITING entries by priority, highest first, then by schedule position. -/
def State.serviceOrder (s : State) : List Tag :=
  ((s.sched.entries.filter fun e => e.state == .waiting).foldl (fun acc e => insertByPriority e acc) []).map
    fun e => e.cue.tag

/-- The work of one allocation pass (R31). -/
def State.pass (s : State) : State :=
  s.serviceOrder.foldl State.serveTag s

/-- The incoming cue of a HANDOFF voice starts on it (R38 steps 2 to 5, R40 step 2), the departing cue having ended. -/
def State.startIncoming (s : State) (v : VoiceId) (c : Cue) : State :=
  s.startCue v c

/-- The departing cue of a HANDOFF voice ends and its incoming cue, if still there, starts; otherwise the voice becomes
IDLE (R38, R40). -/
def State.handOver (s : State) (v : VoiceId) : State :=
  match (s.voice v).incoming with
  | some c => (s.endCurrent v).startIncoming v c
  | none => s.endToIdle v

/-- A current cue with its level set to 0 and its reason as R43 leaves it: a PLAYING cue takes the reason of the event, an
ENDING cue keeps its own, but that a CUT replaces the reason of a normal release (R21, R43). -/
def Voice.endingAtOnce (r : Voice) (reason : EndReason) : Voice :=
  { r with
    env := { r.env with level := 0 }
    current :=
      if r.state = .active ∨ (r.state = .ending ∧ r.releaseMode = some .normal ∧ reason = .cut) then
        r.current.map fun k => k.withReason reason
      else r.current }

/-- A current cue is ended at once (R40, R43). -/
def State.endAtOnce (s : State) (v : VoiceId) (reason : EndReason) : State :=
  if (s.voice v).current.isSome then (s.putVoice v ((s.voice v).endingAtOnce reason)).handOver v else s

/-- A live cue is removed or ended at once, according to its state (R15, R39, R43; the RESTART of R150). -/
def State.endLive (s : State) (tag : Tag) (reason : EndReason) : State :=
  match s.place tag with
  | some (.entry _) => s.removeEntry tag reason
  | some (.incoming v _) => s.removeIncoming v reason
  | some (.current v _) => s.endAtOnce v reason
  | none => s

/-- Every trigger slot is disarmed (R146, R154). -/
def State.disarmAll (s : State) : State :=
  { s with triggers := { s.triggers with slots := Vector.replicate 4 none } }

/-- Every cue is removed or ended at once, every open stream closed and every trigger slot disarmed: the actions of
SYSTEM.RESET with scope AUDIO and of a stall under SILENCE, in their order (R26, R48, R142, R154, R168). -/
def State.quietAll (s : State) (reason : EndReason) : State :=
  let tags := s.sched.entries.map fun e => e.cue.tag
  let s1 := tags.foldl (fun s t => s.removeEntry t reason) s
  let s2 := allVoices.foldl (fun s v => s.removeIncoming v reason) s1
  let s3 := allVoices.foldl (fun s v => s.endAtOnce v reason) s2
  let s4 := allStreamSlots.foldl (fun s i => s.closeStream i) s3
  s4.disarmAll

end Sys2Proof.Machine
end

