-- ==== Sys2Proof/Machine/Operands.lean ====
section
/-! DEFINITION. The formats of chapter 11: value codes, field encoding, body lengths, range checks, the reading of request
fields, and the frame envelope with its check (R155, R156, R185 to R190). Offsets count the bytes after the code. -/

namespace Sys2Proof.Machine

/-! ### Writing fields (R185): most significant byte first -/

/-- A 2-byte field. -/
def be16 (w : Half) : List Byte :=
  [w.extractLsb' 8 8, w.extractLsb' 0 8]

/-- A 4-byte field. -/
def be32 (w : BitVec 32) : List Byte :=
  [w.extractLsb' 24 8, w.extractLsb' 16 8, w.extractLsb' 8 8, w.extractLsb' 0 8]

/-- A yes/no field: 1 for yes, on or high. -/
def yesNo (b : Bool) : Byte :=
  if b then 1 else 0

/-- A 1-byte field that may name nothing: 0xFF for none. -/
def orNone (x : Option Nat) : Byte :=
  match x with
  | some n => byteOf n
  | none => 0xFF#8

/-! ### Reading fields (R185) -/

/-- The 1-byte field at an offset. -/
def u8 (f : List Byte) (i : Nat) : Byte :=
  f.getD i 0

/-- The 2-byte field at an offset. -/
def u16 (f : List Byte) (i : Nat) : Half :=
  u8 f i ++ u8 f (i + 1)

/-- The 4-byte field at an offset. -/
def u32 (f : List Byte) (i : Nat) : BitVec 32 :=
  u16 f i ++ u16 f (i + 2)

/-- Bit k of a flags field. -/
def flag (f : List Byte) (i k : Nat) : Bool :=
  (u8 f i).getLsbD k

/-! ### Value codes (11.2) -/

def Shape.code : Shape → Byte
  | .square => 0
  | .pulse25 => 1
  | .pulse12 => 2
  | .noise => 3

def Shape.ofCode (b : Byte) : Shape :=
  match b.toNat with
  | 0 => .square
  | 1 => .pulse25
  | 2 => .pulse12
  | _ => .noise

def EndReason.code : EndReason → Byte
  | .finished => 0
  | .stopped => 1
  | .cut => 2
  | .stolen => 3
  | .choked => 4
  | .late => 5
  | .noVoice => 6
  | .underrun => 7
  | .aborted => 8
  | .retriggered => 9
  | .linkLost => 10
  | .reset => 11

def VoiceState.code : VoiceState → Byte
  | .idle => 0
  | .active => 1
  | .ending => 2
  | .handoff => 3

def PhraseState.code : PhraseState → Byte
  | .empty => 0
  | .building => 1
  | .ready => 2

def OutputMode.code : OutputMode → Byte
  | .bridge => 0
  | .single => 1

def ClockSource.code : ClockSource → Byte
  | .internal => 0
  | .external => 1

def SyncState.code : SyncState → Byte
  | .internal => 0
  | .seeking => 1
  | .locked => 2
  | .fallback => 3

def Session.code : Session → Byte
  | .closed => 0
  | .opened => 1
  | .stalled => 2

def ResetCause.code : ResetCause → Byte
  | .power => 0
  | .pin => 1
  | .soft => 2

/-- The state of a stream slot: CLOSED 0, then FILLING, READY, PLAYING, STARVED. -/
def streamCode : Option OpenStream → Byte
  | none => 0
  | some t =>
    match t.state with
    | .filling => 1
    | .ready => 2
    | .playing => 3
    | .starved => 4

def RefusalReason.code : RefusalReason → Byte
  | .busy => 0
  | .notReady => 1
  | .scheduleFull => 2

def FaultReason.code : FaultReason → Byte
  | .absent => 0
  | .nested => 1

/-- The state of a live cue (R3): SCHEDULED 0, ALIGNING 1, WAITING 2, CLAIMED 3, PLAYING 4, ENDING 5. -/
def State.placeCode (s : State) : Place → Byte
  | .entry e =>
    match e.state with
    | .scheduled => 0
    | .aligning => 1
    | .waiting => 2
  | .incoming _ _ => 3
  | .current v _ => if (s.voice v).state = .active then 4 else 5

/-! ### Replies (R189) -/

/-- The status codes of 11.8. -/
inductive Status where
  | ok
  | unknownRequest
  | badLength
  | badParam
  | notOpen
  | stalled
  | tagInUse
  | noSuchCue
  | cueState
  | scheduleFull
  | notReady
  | phraseState
  | exists
  | buildBusy
  | noSpace
  | tooLong
  | noTimedStep
  | inUse
  | streamState
  | streamBound
  | ringFull
  | outOfOrder
  deriving DecidableEq, Repr

def Status.code : Status → Byte
  | .ok => 0x00
  | .unknownRequest => 0x01
  | .badLength => 0x02
  | .badParam => 0x03
  | .notOpen => 0x04
  | .stalled => 0x05
  | .tagInUse => 0x06
  | .noSuchCue => 0x07
  | .cueState => 0x08
  | .scheduleFull => 0x09
  | .notReady => 0x0A
  | .phraseState => 0x0B
  | .exists => 0x0C
  | .buildBusy => 0x0D
  | .noSpace => 0x0E
  | .tooLong => 0x0F
  | .noTimedStep => 0x10
  | .inUse => 0x11
  | .streamState => 0x12
  | .streamBound => 0x13
  | .ringFull => 0x14
  | .outOfOrder => 0x15

/-- What answers a request: a status and the results after it. -/
structure Answer where
  status : Status
  results : List Byte
  deriving DecidableEq, Repr

/-- A refusal without results. -/
def refuse (st : Status) : Answer :=
  { status := st, results := [] }

/-- OK with its results. -/
def answerOk (results : List Byte) : Answer :=
  { status := .ok, results := results }

/-- BAD_PARAM with a field index and a position, 0xFF unless a rule gives one (R188, R189). -/
def badParam (index : Nat) (position : Byte := 0xFF#8) : Answer :=
  { status := .badParam, results := [byteOf index, position] }

/-- The reply body: the code as received, the status byte, the results (R189). -/
def replyBody (code : Byte) (a : Answer) : List Byte :=
  code :: a.status.code :: a.results

/-! ### Request codes and body lengths (11.3, R187) -/

/-- The requests of 11.3. -/
inductive Request where
  | linkOpen
  | status
  | systemReset
  | reportSelect
  | reportAck
  | cuePlay
  | cueStop
  | cueCut
  | cueAdjust
  | cueQuery
  | phraseBegin
  | phraseAdd
  | phraseEnd
  | phraseDrop
  | phraseInfo
  | mapWrite
  | mapRead
  | mapRestore
  | outputSet
  | clockSet
  | clockBar
  | clockRead
  | streamOpen
  | streamData
  | streamEnd
  | streamAbort
  | triggerArm
  | triggerDisarm
  deriving DecidableEq, Repr

def Request.code : Request → Byte
  | .linkOpen => 0x01
  | .status => 0x02
  | .systemReset => 0x03
  | .reportSelect => 0x08
  | .reportAck => 0x09
  | .cuePlay => 0x10
  | .cueStop => 0x11
  | .cueCut => 0x12
  | .cueAdjust => 0x13
  | .cueQuery => 0x14
  | .phraseBegin => 0x20
  | .phraseAdd => 0x21
  | .phraseEnd => 0x22
  | .phraseDrop => 0x23
  | .phraseInfo => 0x24
  | .mapWrite => 0x30
  | .mapRead => 0x31
  | .mapRestore => 0x32
  | .outputSet => 0x33
  | .clockSet => 0x40
  | .clockBar => 0x41
  | .clockRead => 0x42
  | .streamOpen => 0x50
  | .streamData => 0x51
  | .streamEnd => 0x52
  | .streamAbort => 0x53
  | .triggerArm => 0x60
  | .triggerDisarm => 0x61

/-- Every request of 11.3. -/
def Request.all : List Request :=
  [.linkOpen, .status, .systemReset, .reportSelect, .reportAck, .cuePlay, .cueStop, .cueCut, .cueAdjust, .cueQuery,
    .phraseBegin, .phraseAdd, .phraseEnd, .phraseDrop, .phraseInfo, .mapWrite, .mapRead, .mapRestore, .outputSet,
    .clockSet, .clockBar, .clockRead, .streamOpen, .streamData, .streamEnd, .streamAbort, .triggerArm, .triggerDisarm]

/-- The request a code names (11.3). -/
def Request.ofCode (code : Byte) : Option Request :=
  Request.all.find? fun r => r.code == code

/-- The body length check, over the bytes after the code (R187, 11.3). -/
def Request.lengthOk (r : Request) (f : List Byte) : Bool :=
  let len := f.length + 1
  match r with
  | .linkOpen => len == 4
  | .status => len == 1
  | .systemReset => len == 2
  | .reportSelect => len == 3
  | .reportAck => len == 2
  | .cuePlay => len == 23
  | .cueStop => len == 4
  | .cueCut => len == 4
  | .cueAdjust => len == 6
  | .cueQuery => len == 3
  | .phraseBegin => len == 6
  | .phraseAdd => len == 2 + 6 * (u8 f 0).toNat
  | .phraseEnd => len == 1
  | .phraseDrop => len == 2
  | .phraseInfo => len == 2
  | .mapWrite => len == 3 + 2 * (u8 f 1).toNat
  | .mapRead => len == 3
  | .mapRestore => len == 1
  | .outputSet => len == 6
  | .clockSet => len == 6
  | .clockBar => len == 1
  | .clockRead => len == 1
  | .streamOpen => len == 5
  | .streamData => 5 ≤ len && len ≤ 132
  | .streamEnd => len == 2
  | .streamAbort => len == 2
  | .triggerArm => len == 28
  | .triggerDisarm => len == 3

/-! ### Range checks (R188) -/

/-- A field index with whether its field lies in its checked range, or is not tested. -/
abbrev FieldTest := Nat × Bool

/-- A number lies in a range, both ends included. -/
def within (lo hi n : Nat) : Bool :=
  lo ≤ n && n ≤ hi

/-- The tests of CUE.PLAY fields 1 to 16 at an offset, with indices counted on from `base` (11.6). In a TRIGGER.ARM template
(`template` true) a STREAM source's data fields are not tested (R188). DESIGN CHOICE (log entry 31): in a template that
starts AT a tick they are tested unless the source is STREAM. -/
def playTests (f : List Byte) (o base : Nat) (template : Bool) : List FieldTest :=
  let kind := (u8 f (o + 2)).toNat
  let id := (u8 f (o + 3)).toNat
  let pitched := kind == 1 || kind == 2
  [(base + 1, u16 f o != 0),
    (base + 2, kind ≤ 3),
    (base + 3,
      if kind = 0 then id ≤ 31 else if pitched then id ≤ 127 else if template then true else within 1 255 id),
    (base + 4, !pitched || u16 f (o + 4) != 0),
    (base + 5, kind != 1 || (u8 f (o + 6)).toNat ≤ 2),
    (base + 6, (u8 f (o + 7)).toNat ≤ 7),
    (base + 7, (u8 f (o + 8)).toNat ≤ 15),
    (base + 8, (u8 f (o + 9)).toNat ≤ 15),
    (base + 9, (u8 f (o + 10)).toNat ≤ 2),
    (base + 10, (u8 f (o + 10)).toNat != 2 || (u32 f (o + 11)).toNat ≤ 65535),
    (base + 11, (u8 f (o + 15)).toNat ≤ 2)]

/-- The range tests of a request, in order of field index (R188, 11.6). -/
def Request.tests (r : Request) (f : List Byte) : List FieldTest :=
  match r with
  | .linkOpen =>
    [(1, (u8 f 0).toNat ≤ 1), (2, u16 f 1 == 0 || within 100 60000 (u16 f 1).toNat)]
  | .status => []
  | .systemReset => [(1, (u8 f 0).toNat ≤ 1)]
  | .reportSelect => []
  | .reportAck => []
  | .cuePlay => playTests f 0 0 false
  | .cueStop => [(1, (u8 f 0).toNat ≤ 2), (2, u8 f 0 != 0 || u16 f 1 != 0)]
  | .cueCut => [(1, (u8 f 0).toNat ≤ 2), (2, u8 f 0 != 0 || u16 f 1 != 0)]
  | .cueAdjust =>
    [(1, u16 f 0 != 0), (3, !flag f 2 0 || (u8 f 3).toNat ≤ 15), (4, !flag f 2 1 || (u8 f 4).toNat ≤ 7)]
  | .cueQuery => [(1, u16 f 0 != 0)]
  | .phraseBegin => [(1, (u8 f 0).toNat ≤ 31), (2, (u8 f 1).toNat ≤ 3), (5, (u8 f 4).toNat ≤ 1)]
  | .phraseAdd => [(1, within 1 24 (u8 f 0).toNat)]
  | .phraseEnd => []
  | .phraseDrop => [(1, (u8 f 0).toNat ≤ 31)]
  | .phraseInfo => [(1, (u8 f 0).toNat ≤ 31)]
  | .mapWrite => [(1, (u8 f 0).toNat ≤ 127), (2, within 1 16 (u8 f 1).toNat)]
  | .mapRead => [(1, (u8 f 0).toNat ≤ 127), (2, within 1 16 (u8 f 1).toNat)]
  | .mapRestore => []
  | .outputSet =>
    [(2, !flag f 0 0 || (u8 f 1).toNat ≤ 31), (3, !flag f 0 1 || (u8 f 2).toNat ≤ 15),
      (4, !flag f 0 2 || (u8 f 3).toNat ≤ 1), (5, !flag f 0 3 || (u8 f 4).toNat ≤ 1)]
  | .clockSet =>
    [(2, !flag f 0 0 || within 20 5000 (u16 f 1).toNat), (3, !flag f 0 1 || within 1 16 (u8 f 3).toNat),
      (4, !flag f 0 2 || (u8 f 4).toNat ≤ 1)]
  | .clockBar => []
  | .clockRead => []
  | .streamOpen =>
    [(1, within 1 255 (u8 f 0).toNat), (2, (u8 f 1).toNat ≤ 3), (3, within 1 32 (u8 f 2).toNat),
      (4, (u8 f 3).toNat ≤ 1)]
  | .streamData => [(1, within 1 255 (u8 f 0).toNat)]
  | .streamEnd => [(1, within 1 255 (u8 f 0).toNat)]
  | .streamAbort => [(1, within 1 255 (u8 f 0).toNat)]
  | .triggerArm =>
    ([(1, (u8 f 0).toNat ≤ 3), (2, (u8 f 1).toNat ≤ 1), (3, (u8 f 2).toNat ≤ 2), (4, (u8 f 3).toNat ≤ 1),
      (5, (u8 f 4).toNat ≤ 1)] : List FieldTest) ++ playTests f 5 5 true
  | .triggerDisarm => [(1, (u8 f 0).toNat ≤ 1), (2, u8 f 0 != 0 || (u8 f 1).toNat ≤ 3)]

/-- The field index of the first field that fails its test (R188). -/
def firstBad (tests : List FieldTest) : Option Nat :=
  (tests.find? fun t => !t.2).map Prod.fst

/-- The request passes the session check (R165): LINK.OPEN and STATUS in every state, the others in OPEN only. -/
def Request.anySession (r : Request) : Bool :=
  r == .linkOpen || r == .status

/-- The common request checks of a request with a known code, checks 2 to 4 of R186: the answer when one fails. -/
def Request.check (r : Request) (session : Session) (f : List Byte) : Option Answer :=
  if !r.lengthOk f then some (refuse .badLength)
  else
    match firstBad (r.tests f) with
    | some i => some (badParam i)
    | none =>
      if r.anySession then none
      else
        match session with
        | .closed => some (refuse .notOpen)
        | .stalled => some (refuse .stalled)
        | .opened => none

/-! ### Reading the fields of requests that passed the checks (11.6) -/

/-- The phrase id a byte names. -/
def phraseOf (b : Byte) : PhraseId := Fin.ofNat 32 b.toNat

/-- The note a byte names. -/
def noteOf (b : Byte) : Note := Fin.ofNat 128 b.toNat

/-- The source fields 2 to 5 of CUE.PLAY. -/
def readSource (f : List Byte) (o : Nat) : Source :=
  match (u8 f (o + 2)).toNat with
  | 0 => .phrase (phraseOf (u8 f (o + 3)))
  | 1 => .tone (noteOf (u8 f (o + 3))) (u16 f (o + 4)).toNat (Shape.ofCode (u8 f (o + 6)))
  | 2 => .noise (noteOf (u8 f (o + 3))) (u16 f (o + 4)).toNat
  | _ => .stream (u8 f (o + 3))

/-- The start fields 9 and 10 of CUE.PLAY. -/
def readStart (f : List Byte) (o : Nat) : Start :=
  match (u8 f (o + 10)).toNat with
  | 0 => .now
  | 1 => .atTick (u32 f (o + 11))
  | _ => .after (u32 f (o + 11)).toNat

/-- The quantize field 11 of CUE.PLAY. -/
def readQuantize (f : List Byte) (o : Nat) : Quantize :=
  match (u8 f (o + 15)).toNat with
  | 0 => .off
  | 1 => .beat
  | _ => .bar

/-- CUE.PLAY fields 1 to 16 at an offset. -/
def readTemplate (f : List Byte) (o : Nat) : Template :=
  { tag := u16 f o
    source := readSource f o
    priority := (u8 f (o + 7)).toNat
    group := (u8 f (o + 8)).toNat
    volume := (u8 f (o + 9)).toNat
    start := readStart f o
    quantize := readQuantize f o
    window := (u16 f (o + 16)).toNat
    repeats := (u8 f (o + 18)).toNat
    exclusive := flag f (o + 19) 0
    duck := flag f (o + 19) 1
    rates :=
      if flag f (o + 19) 2 then some { attack := (u8 f (o + 20)).toNat, release := (u8 f (o + 21)).toNat } else none }

/-- A step of PHRASE.ADD at an offset, none when it is a bad step (R52, 11.6); `self` is the phrase being built. -/
def readStep (f : List Byte) (o : Nat) (self : PhraseId) : Option Step :=
  let b1 := u8 f (o + 1)
  let duration := (u16 f (o + 2)).toNat
  match (u8 f o).toNat with
  | 0 =>
    if b1.toNat ≤ 127 ∧ within 1 4095 duration ∧ (u8 f (o + 4)).toNat ≤ 15 ∧ within 1 8 (u8 f (o + 5)).toNat then
      some (.note (noteOf b1) duration (u8 f (o + 4)).toNat (u8 f (o + 5)).toNat)
    else none
  | 1 => if within 1 4095 duration then some (.rest duration) else none
  | 2 => if b1.toNat ≤ 31 ∧ phraseOf b1 ≠ self then some (.call (phraseOf b1)) else none
  | 3 => some (.mark b1)
  | 4 => if b1.toNat ≤ 3 then some (.shape (Shape.ofCode b1)) else none
  | _ => none

/-- The steps a PHRASE.ADD offers, each as read, in order. -/
def readSteps (f : List Byte) (n : Nat) (self : PhraseId) : List (Option Step) :=
  (List.range n).map fun k => readStep f (1 + 6 * k) self

/-- The period values of a MAP.WRITE, in order. -/
def readPeriods (f : List Byte) (n : Nat) : List Nat :=
  (List.range n).map fun k => (u16 f (2 + 2 * k)).toNat

/-! ### Frames (R155, R156) -/

/-- One shift of the check register (R156). -/
def crcShift (r : Half) : Half :=
  if r.getLsbD 15 then (r <<< 1) ^^^ 0x1021#16 else r <<< 1

/-- One byte taken into the check register: into its high 8 bits, then eight shifts (R156). -/
def crcByte (r : Half) (b : Byte) : Half :=
  crcShift (crcShift (crcShift (crcShift (crcShift (crcShift (crcShift (crcShift (r ^^^ (b ++ (0 : Byte))))))))))

/-- The check over the bytes from LEN to the last body byte (R156). -/
def crc (bytes : List Byte) : Half :=
  bytes.foldl crcByte 0xFFFF#16

/-- A frame: start byte, LEN, TYPE, NUM, body, check high byte first (R155). -/
def frame (type num : Byte) (body : List Byte) : List Byte :=
  let inner := byteOf body.length :: type :: num :: body
  Config.startByte :: inner ++ be16 (crc inner)

/-- The TYPE of a request frame. -/
def typeRequest : Byte := 0x01
/-- The TYPE of a reply frame. -/
def typeReply : Byte := 0x02
/-- The TYPE of a report frame. -/
def typeReport : Byte := 0x03

/-- The fields of a report kind, in order (R190). -/
def ReportKind.fields : ReportKind → List Byte
  | .cueStarted tag v => be16 tag ++ [byteOf v.val]
  | .cueEnded tag reason v => be16 tag ++ [reason.code, orNone (v.map Fin.val)]
  | .mark tag value => be16 tag ++ [value]
  | .beat b n => byteOf b :: be16 n
  | .syncLost t => be32 t
  | .syncRegained => []
  | .streamCredit n => [byteOf n]
  | .streamStarved id => [id]
  | .streamResumed id => [id]
  | .triggerFired slot tag => byteOf slot.val :: be16 tag
  | .triggerRefused slot tag reason => byteOf slot.val :: be16 tag ++ [reason.code]
  | .phraseFault tag id step reason => be16 tag ++ [byteOf id.val, byteOf step, reason.code]
  | .reportsLost n => be16 (halfOf n)

/-- The body of a report: kind code, event tick, fields (R190). -/
def Report.body (r : Report) : List Byte :=
  byteOf r.kind.code :: be32 r.tick ++ r.kind.fields

end Sys2Proof.Machine
end

