-- ==== Sys2Proof/Machine/Cues.lean ====
section
/-! DEFINITION. The cue scheduler: acceptance, due events, beat releases, wait deadlines, and the requests CUE.PLAY,
CUE.STOP, CUE.CUT, CUE.ADJUST and CUE.QUERY (chapter 1). -/

namespace Sys2Proof.Machine

/-! ### Acceptance (R1, R2, R7, R16, R17) -/

/-- The due tick of a cue accepted at tick `a` (R7). -/
def dueTick (start : Start) (a : Tick) : Tick :=
  match start with
  | .now => a
  | .after d => a + BitVec.ofNat 32 d
  | .atTick t => if reached a t then a else t

/-- A TONE or NOISE source, which alone has attack and release fields (R2). -/
def Source.pitched : Source → Bool
  | .tone .. => true
  | .noise .. => true
  | _ => false

/-- A STREAM source. -/
def Source.isStream : Source → Bool
  | .stream _ => true
  | _ => false

/-- The cue record built from host fields at acceptance, the fields stored as R2 states (R1, R2, R17 step 1). -/
def Template.cue (t : Template) (a : Tick) (n : BitVec 32) : Cue :=
  { tag := t.tag, source := t.source, priority := t.priority, group := t.group, volume := t.volume, start := t.start,
    quantize := t.quantize, window := t.window
    repeats := if t.source.pitched then 1 else t.repeats
    exclusive := t.exclusive
    duck := t.source.isStream && t.duck
    rates := if t.source.pitched then some (t.rates.getD { attack := 0, release := 4 }) else none
    acceptance := n, due := dueTick t.start a, deadline := none, endReason := none }

/-- The conditions of R16 in their order, with the answer of the first that fails. -/
def State.playRefusal (s : State) (t : Template) : Option Answer :=
  if s.isLive t.tag then some (refuse .tagInUse)
  else if !t.source.pitched && t.rates.isSome then some (badParam 15)
  else if t.source.isStream && t.repeats != 1 then some (badParam 13)
  else
    let open? : Option Answer :=
      match t.source with
      | .phrase id => if s.phraseReady id then none else some (refuse .notReady)
      | .stream id =>
        match s.openSlot id with
        | none => some (refuse .streamState)
        | some i => if (s.stream i).any fun x => x.bound.isSome then some (refuse .streamBound) else none
      | _ => none
    match open? with
    | some a => some a
    | none =>
      if s.sched.entries.length < Config.scheduleEntries then none else some (refuse .scheduleFull)

/-- The stream unit binds a stream to a cue's tag (R130). -/
def State.bind (s : State) (id : Byte) (tag : Tag) : State :=
  match s.openSlot id with
  | some i => s.putStream i ((s.stream i).map fun t => { t with bound := some tag })
  | none => s

/-- The cue's source is taken hold of: a phrase reference, or the binding of a stream (R17 steps 4 and 5). -/
def State.holdSource (s : State) (c : Cue) : State :=
  match c.source with
  | .phrase id => s.refUp id
  | .stream id => s.bind id c.tag
  | .tone .. => s
  | .noise .. => s

/-- The cue that the part would build from these fields now. -/
def State.newCue (s : State) (t : Template) : Cue :=
  t.cue s.now s.sched.counter

/-- Acceptance of a cue (R17 steps 1 to 5, R149): the record is built, its tag joins the live set, it enters the schedule by
R6, SCHEDULED, and its source is taken hold of. The due event of a due tick already reached follows it (`State.dueOwn`). -/
def State.accept (s : State) (t : Template) : State :=
  let c := s.newCue t
  let s1 :=
    { s with
      sched :=
        { s.sched with
          entries := insertEntry { cue := c, state := .scheduled } s.sched.entries
          live := s.sched.live ++ [t.tag]
          counter := s.sched.counter + 1 } }
  s1.holdSource c

/-! ### Due events, beat releases and deadlines (R8, R10, R12, R13) -/

/-- An entry enters WAITING at tick w, its deadline set from its window (R12). -/
def Entry.wait (e : Entry) (w : Tick) : Entry :=
  { cue :=
      { e.cue with
        deadline :=
          if e.cue.window = 0 ∨ e.cue.window = 65535 then none else some (w + BitVec.ofNat 32 e.cue.window) }
    state := .waiting }

/-- An entry a due event takes enters WAITING or ALIGNING by its quantize field (R8). -/
def Entry.becomeDue (e : Entry) (w : Tick) : Entry :=
  match e.cue.quantize with
  | .off => e.wait w
  | .beat => { e with state := .aligning }
  | .bar => { e with state := .aligning }

/-- The entry is SCHEDULED and its due tick is reached (R8). -/
def State.isDue (s : State) (e : Entry) : Bool :=
  e.state == .scheduled && reached s.now e.cue.due

/-- The schedule after the entries `takes` selects have become `to`, and one pass asked if any entered WAITING
(R8, R10). -/
def State.moveEntries (s : State) (takes : Entry → Bool) (move : Entry → Entry) : State :=
  let moved := s.sched.entries.map fun e => if takes e then move e else e
  let s' := { s with sched := { s.sched with entries := moved } }
  if s.sched.entries.any fun e => takes e && (move e).state == .waiting then s'.askPass else s'

/-- The due event of an advance (R8): it takes every SCHEDULED entry whose due tick is reached. -/
def State.dueEvent (s : State) : State :=
  s.moveEntries s.isDue fun e => e.becomeDue s.now

/-- The due event of its own of the cue accepted under this number, where its due tick is reached (R8, R17). -/
def State.dueOwn (s : State) (n : BitVec 32) : State :=
  s.moveEntries (fun e => s.isDue e && e.cue.acceptance == n) fun e => e.becomeDue s.now

/-- The due events of their own of the cues accepted since the acceptance counter stood at `n`, in order of acceptance (R8,
R147). -/
def State.dueSince (s : State) (n : BitVec 32) : State :=
  (List.range (s.sched.counter - n).toNat).foldl (fun s k => s.dueOwn (n + BitVec.ofNat 32 k)) s

/-- A beat edge releases this entry (R9): BEAT at any edge, BAR at beat 1. -/
def Entry.releasedBy (e : Entry) (beatInBar : Nat) : Bool :=
  e.state == .aligning &&
    match e.cue.quantize with
    | .bar => beatInBar == 1
    | _ => true

/-- The release event of a beat edge (R10). -/
def State.releaseEvent (s : State) (beatInBar : Nat) : State :=
  s.moveEntries (fun e => e.releasedBy beatInBar) fun e => e.wait s.now

/-- The wait deadline of this entry is reached (R13). -/
def State.late (s : State) (e : Entry) : Bool :=
  e.state == .waiting && e.cue.deadline.any fun d => reached s.now d

/-- The WAITING entry with this tag whose deadline is reached is removed LATE (R13). -/
def State.deadline (s : State) (tag : Tag) : State :=
  match s.sched.entries.find? fun e => e.cue.tag == tag with
  | some e => if s.late e then s.removeEntry tag .late else s
  | none => s

/-! ### CUE.PLAY (R16, R17) -/

/-- CUE.PLAY at the scheduler: the cue is accepted, its reply built, and its due event follows at once where its due tick is
reached (R17). -/
def ownPlay (f : List Byte) (s : State) : State × Answer :=
  let t := readTemplate f 0
  match s.playRefusal t with
  | some a => (s, a)
  | none =>
    ((s.accept t).dueOwn s.sched.counter, answerOk (be32 (s.newCue t).acceptance ++ be32 (s.newCue t).due))

/-! ### CUE.STOP and CUE.CUT (R18 to R22) -/

/-- What a stop or cut addresses, when not by tag: the groups of a mask, or every cue (R18). -/
inductive Addressed where
  | groups (mask : Half)
  | all
  deriving DecidableEq, Repr

/-- The cue is addressed (R18). -/
def Addressed.selects (a : Addressed) (c : Cue) : Bool :=
  match a with
  | .groups mask => mask.getLsbD c.group
  | .all => true

/-- The tags of the selected schedule entries, in schedule order (R18, R22). -/
def State.selectedEntries (s : State) (a : Addressed) : List Tag :=
  (s.sched.entries.filter fun e => a.selects e.cue).map fun e => e.cue.tag

/-- The voices whose incoming cue is selected, in order (R18, R22). -/
def State.selectedIncoming (s : State) (a : Addressed) : List VoiceId :=
  allVoices.filter fun v => (s.voice v).incoming.any a.selects

/-- The voices whose current cue is selected, with its tag, in order (R18, R22). -/
def State.selectedCurrent (s : State) (a : Addressed) : List (VoiceId × Tag) :=
  allVoices.filterMap fun v =>
    match (s.voice v).current with
    | some k => if a.selects k.cue then some (v, k.cue.tag) else none
    | none => none

/-- Phase 1 of a stop or cut: the selected schedule entries, then the selected incoming cues, are removed (R22). -/
def State.removeSelected (s : State) (a : Addressed) (reason : EndReason) : State :=
  let s1 := (s.selectedEntries a).foldl (fun s t => s.removeEntry t reason) s
  (s.selectedIncoming a).foldl (fun s v => s.removeIncoming v reason) s1

/-- How many cues phase 1 removes. -/
def State.removedCount (s : State) (a : Addressed) : Nat :=
  (s.selectedEntries a).length + (s.selectedIncoming a).length

/-- A state with two counts of actions. -/
structure Counted where
  state : State
  first : Nat
  second : Nat
  deriving DecidableEq, Repr

/-- A voice still holds the current cue with this tag. -/
def State.holds (s : State) (v : VoiceId) (tag : Tag) : Bool :=
  (s.voice v).current.any fun k => k.cue.tag == tag

/-- The stop of one selected current cue (R19): set ending when PLAYING, left as it was when ENDING. -/
def Counted.stop (c : Counted) (vt : VoiceId × Tag) : Counted :=
  if c.state.holds vt.1 vt.2 then
    if (c.state.voice vt.1).state = .active then
      { state := c.state.enterEnding vt.1 .stopped, first := c.first + 1, second := c.second }
    else { c with second := c.second + 1 }
  else c

/-- The cut of one selected current cue (R21). -/
def Counted.cut (c : Counted) (vt : VoiceId × Tag) : Counted :=
  if c.state.holds vt.1 vt.2 then { c with state := c.state.endAtOnce vt.1 .cut, first := c.first + 1 } else c

/-- CUE.STOP in the mask and ALL forms (R19, R20, R22). -/
def State.stopAddressed (s : State) (a : Addressed) : State × Answer :=
  let r := (s.selectedCurrent a).foldl Counted.stop { state := s.removeSelected a .stopped, first := 0, second := 0 }
  (r.state, answerOk [byteOf (s.removedCount a), byteOf r.first, byteOf r.second])

/-- CUE.CUT in the mask and ALL forms (R21, R22). -/
def State.cutAddressed (s : State) (a : Addressed) : State × Answer :=
  let r := (s.selectedCurrent a).foldl Counted.cut { state := s.removeSelected a .cut, first := 0, second := 0 }
  (r.state, answerOk [byteOf (s.removedCount a), byteOf r.first])

/-- CUE.STOP by tag (R18 to R20): outcome REMOVED 0, ENDING_STARTED 1 or ALREADY_ENDING 2. -/
def State.stopTag (s : State) (tag : Tag) : State × Answer :=
  if !s.isLive tag then (s, refuse .noSuchCue)
  else
    match s.place tag with
    | some (.entry _) => (s.removeEntry tag .stopped, answerOk [0])
    | some (.incoming v _) => (s.removeIncoming v .stopped, answerOk [0])
    | some (.current v _) =>
      if (s.voice v).state = .active then (s.enterEnding v .stopped, answerOk [1]) else (s, answerOk [2])
    | none => (s, refuse .noSuchCue)

/-- CUE.CUT by tag (R18, R21): outcome REMOVED 0 or CUT 3. -/
def State.cutTag (s : State) (tag : Tag) : State × Answer :=
  if !s.isLive tag then (s, refuse .noSuchCue)
  else
    match s.place tag with
    | some (.entry _) => (s.removeEntry tag .cut, answerOk [0])
    | some (.incoming v _) => (s.removeIncoming v .cut, answerOk [0])
    | some (.current v _) => (s.endAtOnce v .cut, answerOk [3])
    | none => (s, refuse .noSuchCue)

/-- CUE.STOP at the scheduler: by tag, by group mask (BAD_PARAM when the flag of group 0 is set), or ALL (R18). -/
def ownStop (f : List Byte) (s : State) : State × Answer :=
  match (u8 f 0).toNat with
  | 0 => s.stopTag (u16 f 1)
  | 1 => if (u16 f 1).getLsbD 0 then (s, badParam 2) else s.stopAddressed (.groups (u16 f 1))
  | _ => s.stopAddressed .all

/-- CUE.CUT at the scheduler (R18, R21). -/
def ownCut (f : List Byte) (s : State) : State × Answer :=
  match (u8 f 0).toNat with
  | 0 => s.cutTag (u16 f 1)
  | 1 => if (u16 f 1).getLsbD 0 then (s, badParam 2) else s.cutAddressed (.groups (u16 f 1))
  | _ => s.cutAddressed .all

/-! ### CUE.ADJUST (R23) -/

/-- A cue with the new volume and priority that are present. -/
def Cue.adjusted (c : Cue) (volume priority : Option Nat) : Cue :=
  { c with volume := volume.getD c.volume, priority := priority.getD c.priority }

/-- The cue of a place. -/
def Place.cue : Place → Cue
  | .entry e => e.cue
  | .incoming _ c => c
  | .current _ k => k.cue

/-- The target the volume of a PLAYING cue asks for (R72, R98): on a synth voice only while a step volume is present. -/
def Voice.volumeTarget (v : VoiceId) (r : Voice) (volume : Nat) : Option Nat :=
  if v = streamVoice then some volume else (r.player.bind (·.stepVolume)).map fun sv => noteTarget sv volume

/-- A voice whose PLAYING cue takes a new volume (R23, R72, R98). -/
def Voice.revolume (v : VoiceId) (r : Voice) (volume : Option Nat) : Voice :=
  match volume with
  | some x =>
    match Voice.volumeTarget v r x with
    | some target => { r.rateStep with env := r.rateStep.env.retarget target r.rates }
    | none => r
  | none => r

/-- The change is refused with CUE_STATE (R23): the cue is ENDING, or CLAIMED with a new priority not greater than that
of the departing cue. -/
def State.adjustRefused (s : State) (p : Place) (priority : Option Nat) : Bool :=
  match p with
  | .entry _ => false
  | .incoming v _ =>
    match priority, (s.voice v).current with
    | some x, some k => !(k.cue.priority < x)
    | _, _ => false
  | .current v _ => (s.voice v).state != .active

/-- The changes of CUE.ADJUST, in the place that holds the cue (R23). -/
def State.adjustPlace (s : State) (p : Place) (volume priority : Option Nat) : State :=
  match p with
  | .entry e =>
    { s with
      sched :=
        { s.sched with
          entries := s.sched.entries.map fun x =>
            if x.cue.tag = e.cue.tag then { x with cue := x.cue.adjusted volume priority } else x } }
  | .incoming v c => s.putVoice v { s.voice v with incoming := some (c.adjusted volume priority) }
  | .current v k =>
    s.putVoice v
      { Voice.revolume v (s.voice v) volume with current := some { k with cue := k.cue.adjusted volume priority } }

/-- CUE.ADJUST at the scheduler (R23). -/
def ownAdjust (f : List Byte) (s : State) : State × Answer :=
  let tag := u16 f 0
  let volume := if flag f 2 0 then some (u8 f 3).toNat else none
  let priority := if flag f 2 1 then some (u8 f 4).toNat else none
  if volume.isNone && priority.isNone then (s, badParam 2)
  else if !s.isLive tag then (s, refuse .noSuchCue)
  else
    match s.place tag with
    | none => (s, refuse .noSuchCue)
    | some p =>
      if s.adjustRefused p priority then (s, refuse .cueState)
      else
        let c := p.cue.adjusted volume priority
        let s' := s.adjustPlace p volume priority
        (if p.cue.priority < c.priority then s'.askPass else s',
          answerOk [s.placeCode p, byteOf c.volume, byteOf c.priority])

/-! ### CUE.QUERY (R24) -/

/-- Repeats left (R24): the player's count for a PHRASE cue on a voice, the repeat field for one not yet placed, 1 for
other sources. -/
def State.repeatsLeft (s : State) (p : Place) : Nat :=
  match p.cue.source, p with
  | .phrase _, .current v _ => ((s.voice v).player.map fun x => x.repeatsLeft).getD 1
  | .phrase _, _ => p.cue.repeats
  | _, _ => 1

/-- The voice of a CUE.QUERY reply. -/
def Place.voice : Place → Option Nat
  | .entry _ => none
  | .incoming v _ => some v.val
  | .current v _ => some v.val

/-- The wait deadline of a CUE.QUERY reply: that of a WAITING cue that has one (R24). -/
def Place.deadline : Place → Option Tick
  | .entry e => if e.state = .waiting then e.cue.deadline else none
  | _ => none

/-- The end reason of a CUE.QUERY reply: that of an ENDING cue (R24). -/
def State.placeReason (s : State) (p : Place) : Option EndReason :=
  match p with
  | .current v k => if (s.voice v).state = .active then none else k.cue.endReason
  | _ => none

/-- The results of CUE.QUERY (R24, 11.6). -/
def State.queryResults (s : State) (p : Place) : List Byte :=
  let c := p.cue
  let flags : Byte := yesNo p.deadline.isSome ||| (yesNo (s.placeReason p).isSome <<< 1)
  [s.placeCode p, orNone p.voice] ++ be32 c.due ++ be32 c.acceptance ++
    [byteOf c.priority, byteOf c.volume, byteOf (s.repeatsLeft p), flags] ++ be32 (p.deadline.getD 0) ++
    [((s.placeReason p).map EndReason.code).getD 0xFF#8]

/-- CUE.QUERY at the scheduler; it changes nothing (R24). -/
def ownQuery (f : List Byte) (s : State) : State × Answer :=
  let tag := u16 f 0
  if !s.isLive tag then (s, refuse .noSuchCue)
  else
    match s.place tag with
    | some p => (s, answerOk (s.queryResults p))
    | none => (s, refuse .noSuchCue)

end Sys2Proof.Machine
end

