-- ==== Sys2Proof/Machine/Beats.lean ====
section
/-! DEFINITION. The time base (chapter 6): line qualification, beat edges, SYNC, loss, and the requests CLOCK.SET,
CLOCK.BAR and CLOCK.READ. -/

namespace Sys2Proof.Machine

/-! ### Qualification (R115, R143) -/

/-- A qualifier takes one sample; the edge, if the qualified level changes, is true for rising (R115). -/
def Qualifier.take (q : Qualifier) (sample : Bool) : Qualifier × Option Bool :=
  if sample != q.level && q.last != q.level then ({ level := sample, last := sample }, some sample)
  else ({ q with last := sample }, none)

/-! ### Beat edges (R108 to R111, R117) -/

/-- The effective beat length set by an internal edge (R110). -/
def TimeBase.internalLength (t : TimeBase) : TimeBase :=
  if t.lengthPending then { t with effectiveBeat := t.configuredBeat, lengthPending := false } else t

/-- The effective beat length set by a SYNC edge: the measured interval held to 20–5000, or the configured length
(R110). -/
def TimeBase.syncLength (t : TimeBase) : TimeBase :=
  match t.previousSync with
  | some p => { t with effectiveBeat := max 20 (min 5000 (t.tick - p).toNat), lengthPending := false }
  | none => { t with effectiveBeat := t.configuredBeat, lengthPending := false }

/-- The beat position moves (R108), and the interval count is set to 0 (R111). -/
def TimeBase.movePosition (t : TimeBase) : TimeBase :=
  let bar := t.configuredBar
  let restart : Bool := t.barRestart || bar ≤ t.beatInBar
  { t with
    barInForce := bar
    barRestart := if restart then false else t.barRestart
    beatInBar := if restart then 1 else t.beatInBar + 1
    barNumber := if restart then t.barNumber + 1 else t.barNumber
    lastBeat := some t.tick
    interval := 0
    beatAsk := none }

/-- Deliver the beat edge to the scheduler and the report unit (R109). -/
def State.deliverBeat (s : State) : State :=
  (s.releaseEvent s.time.beatInBar).offer (.beat s.time.beatInBar s.time.barNumber)

/-- An internal beat edge (R108 to R111). -/
def State.takeInternalEdge (s : State) : State :=
  State.deliverBeat { s with time := s.time.internalLength.movePosition }

/-- A SYNC edge (R117). -/
def State.takeSyncEdge (s : State) : State :=
  let t := s.time.syncLength
  let s1 :=
    { s with
      time :=
        { t with previousSync := some t.tick, lossReference := some t.tick, interval := 0, sync := .locked } }
  let s2 := if s.time.sync = .fallback then s1.offer .syncRegained else s1
  State.deliverBeat { s2 with time := s2.time.movePosition }

/-- The beat edge the latest advance called for, where it is not yet taken (R119 stages 2 and 3). -/
def State.takeBeat (s : State) : State :=
  match s.time.beatAsk with
  | some .internal => s.takeInternalEdge
  | some .sync => s.takeSyncEdge
  | none => s

/-- Loss is found (R118), once the advance's beat edge has been taken (R119 stage 4). -/
def TimeBase.lossFound (t : TimeBase) : Bool :=
  t.beatAsk.isNone && (t.sync == .seeking || t.sync == .locked) &&
    t.lossReference.any fun r => 4 * t.effectiveBeat ≤ (t.tick - r).toNat

/-- The loss of external sync (R118). -/
def State.takeLoss (s : State) : State :=
  if s.time.lossFound then
    State.offer
      { s with
        time :=
          { s.time with
            sync := .fallback
            lossReference := none
            previousSync := none
            interval := if s.time.sync = .locked then 0 else s.time.interval } }
      (.syncLost (s.time.lossReference.getD 0))
  else s

/-- The time base's work at an advance of the tick counter up to the edge it calls for (R111, R115, R119 stages 1 to 3).
The counter has been raised. -/
def TimeBase.advance (t : TimeBase) (line : Bool) : TimeBase :=
  let (q, edge) := t.syncLine.take line
  if edge = some true ∧ t.source = .external then { t with syncLine := q, beatAsk := some .sync }
  else
    let n := t.interval + 1
    { t with
      syncLine := q
      interval := n
      beatAsk := if t.sync ≠ .locked ∧ t.effectiveBeat ≤ n then some .internal else none }

/-! ### CLOCK requests (R112 to R114, R116) -/

/-- A change of source takes effect at once (R116). -/
def TimeBase.changeSource (t : TimeBase) (source : ClockSource) : TimeBase :=
  match source with
  | .external =>
    { t with source := .external, sync := .seeking, lossReference := some t.tick, previousSync := none }
  | .internal =>
    { t with
      source := .internal, sync := .internal, lossReference := none, previousSync := none, lengthPending := true }

/-- The source a CLOCK.SET gives, when present and different from the one in force (R112). -/
def TimeBase.newSource (t : TimeBase) (f : List Byte) : Option ClockSource :=
  if flag f 0 2 then
    let source : ClockSource := if u8 f 4 = 1 then .external else .internal
    if source = t.source then none else some source
  else none

/-- The changes of a CLOCK.SET (R112). -/
def TimeBase.set (t : TimeBase) (f : List Byte) : TimeBase :=
  let t1 := if flag f 0 0 then { t with configuredBeat := (u16 f 1).toNat, lengthPending := true } else t
  let t2 := if flag f 0 1 then { t1 with configuredBar := (u8 f 3).toNat } else t1
  match t.newSource f with
  | some source => t2.changeSource source
  | none => t2

/-- The results of CLOCK.SET (R112, 11.6). -/
def TimeBase.setResults (t : TimeBase) : List Byte :=
  be16 (halfOf t.configuredBeat) ++ [yesNo t.lengthPending, byteOf t.configuredBar, t.source.code, t.sync.code] ++
    be16 (halfOf t.effectiveBeat)

/-- CLOCK.SET at the time base (R112). -/
def ownClockSet (f : List Byte) (s : State) : State × Answer :=
  let s' := { s with time := s.time.set f }
  (s', answerOk s'.time.setResults)

/-- CLOCK.BAR at the time base (R113). -/
def ownClockBar (_ : List Byte) (s : State) : State × Answer :=
  ({ s with time := { s.time with barRestart := true } },
    answerOk (byteOf s.time.beatInBar :: be16 s.time.barNumber))

/-- The results of CLOCK.READ (R114, 11.6). -/
def TimeBase.readResults (t : TimeBase) : List Byte :=
  let flags : Byte :=
    yesNo t.lengthPending ||| (yesNo t.barRestart <<< 1) ||| (yesNo t.lastBeat.isSome <<< 2) |||
      (yesNo t.previousSync.isSome <<< 3)
  be32 t.tick ++ [byteOf t.beatInBar] ++ be16 t.barNumber ++ be16 (halfOf t.effectiveBeat) ++
    [t.sync.code, t.source.code] ++ be16 (halfOf t.configuredBeat) ++ [byteOf t.configuredBar, flags] ++
    be32 (t.lastBeat.getD 0) ++ be32 (t.previousSync.getD 0)

/-- CLOCK.READ at the time base; it changes nothing (R114). -/
def ownClockRead (_ : List Byte) (s : State) : State × Answer :=
  (s, answerOk s.time.readResults)

end Sys2Proof.Machine
end

