-- ==== Sys2Proof/Machine/Reporting.lean ====
section
/-! DEFINITION. The report unit: REPORT.SELECT, REPORT.ACK, sending, the retransmission timer, renumbering and ATTN
(chapter 10). -/

namespace Sys2Proof.Machine

/-- REPORT.SELECT at the report unit (R175): the flag of REPORTS_LOST stays set, and unused bits are not kept. -/
def ownSelect (f : List Byte) (s : State) : State × Answer :=
  let mask := (u16 f 0 &&& Config.namedFlags) ||| Config.lostFlag
  ({ s with reports := { s.reports with mask := mask } }, answerOk (be16 s.reports.mask ++ be16 mask))

/-- How many reports an acknowledgement retires: those up to and including the in-flight report of that sequence, none
when no in-flight report has it (R180). -/
def ReportUnit.retires (u : ReportUnit) (n : Byte) : Nat :=
  match u.queue.findIdx? fun r => r.sent && r.sequence == n with
  | some k => k + 1
  | none => 0

/-- The sequence H of R180: the head's, or the next sequence when the queue is empty. -/
def ReportUnit.headSequence (u : ReportUnit) : Byte :=
  match u.queue with
  | r :: _ => r.sequence
  | [] => u.nextSequence

/-- REPORT.ACK at the report unit (R180). -/
def ownAck (f : List Byte) (s : State) : State × Answer :=
  let n := u8 f 0
  let u := s.reports
  let k := u.retires n
  let results (u' : ReportUnit) : List Byte := [byteOf k, byteOf u'.queue.length, u'.nextSequence]
  if 0 < k then
    let u' := { u with queue := u.queue.drop k, retry := 0 }
    ({ s with reports := u' }, answerOk (results u'))
  else if within 1 128 (u.headSequence - n).toNat then (s, answerOk (results u))
  else (s, badParam 1)

/-- The place of the report to send: the oldest with frame due yes among the first four (R177). -/
def ReportUnit.toSend (u : ReportUnit) : Option Nat :=
  (u.queue.take Config.inFlightReports).findIdx? fun r => r.frameDue

/-- A report as it is handed to the link (R177). -/
def Report.handed (r : Report) : Report :=
  { r with frameDue := false, sent := true, onLine := true }

/-- The report whose frame is on TXD has been sent to its last byte (R178). -/
def Report.lineEnded (now : Tick) (r : Report) : Report :=
  if r.onLine then { r with lastSent := some now, onLine := false } else r

/-- The renumbering of one report by LINK.OPEN (R181). -/
def Report.renumber (r : Report) (k : Nat) : Report :=
  { r with sequence := byteOf k, sent := false, frameDue := true, lastSent := none, onLine := false }

/-- LINK.OPEN renumbers the queue (R181). -/
def ReportUnit.renumber (u : ReportUnit) : ReportUnit :=
  { u with
    queue := u.queue.mapIdx fun k r => r.renumber k
    nextSequence := byteOf u.queue.length
    retry := 0 }

/-- The retransmission timer is reached (R178): the head holds a last sent tick 250 or more ticks ago, and its frame is
neither due nor on the line (log entry 16). -/
def ReportUnit.timerReached (u : ReportUnit) (now : Tick) : Bool :=
  match u.queue with
  | r :: _ => !r.frameDue && !r.onLine && r.lastSent.any fun t => Config.retransmitTicks ≤ (now - t).toNat
  | [] => false

/-- Go-back for one report (R179). -/
def Report.goBack (r : Report) : Report :=
  if r.sent then { r with frameDue := true, lastSent := none } else r

/-- Go-back (R179). -/
def ReportUnit.goBack (u : ReportUnit) : ReportUnit :=
  { u with queue := u.queue.map Report.goBack, retry := u.retry + 1 }

/-- ATTN is high while the report queue holds one or more reports (R182). -/
def State.attn (s : State) : Bool :=
  !s.reports.queue.isEmpty

end Sys2Proof.Machine
end

