-- ==== Sys2Proof/Machine/Linking.lean ====
section
/-! DEFINITION. The link (chapter 9): the requests it decides itself, the session, the taking of requests with the reply
cache and the common checks, and the transmitter. -/

namespace Sys2Proof.Machine

/-! ### LINK.OPEN, STATUS and SYSTEM.RESET (R166, R169, R191) -/

/-- The results of LINK.OPEN (R166, 11.6). -/
def Link.openResults (l : Link) (tick : Tick) : List Byte :=
  be16 (halfOf Config.partCode) ++
    [byteOf Config.revision, byteOf Config.scheduleEntries, byteOf Config.phraseSlots, byteOf Config.stepPages,
      byteOf Config.voiceCount, byteOf Config.streamSlots, byteOf Config.streamBlocks, byteOf Config.triggerSlots,
      byteOf Config.reportQueue, byteOf Config.cacheEntries, l.resetCause.code, yesNo l.firstOpen] ++
    be32 tick

/-- LINK.OPEN at the link (R166). -/
def ownLinkOpen (f : List Byte) (s : State) : State × Answer :=
  ({ s with
      reports := s.reports.renumber
      link :=
        { s.link with
          cache := [], discards := 0, overruns := 0
          orphan := if u8 f 0 = 1 then .silence else .continue
          silenceTimeout := (u16 f 1).toNat, silenceCount := 0, session := .opened, firstOpen := false } },
    answerOk (s.link.openResults s.now))

/-- The STATUS bytes of a voice: its state and the tag of its current cue (R27, R191). -/
def Voice.statusBytes (r : Voice) : List Byte :=
  r.state.code :: be16 ((r.current.map fun k => k.cue.tag).getD 0)

/-- The STATUS bytes of a stream slot (R191). -/
def streamStatusBytes (t : Option OpenStream) : List Byte :=
  [streamCode t, (t.map fun x => x.id).getD 0]

/-- STATUS at the link: a reading of every block; it changes nothing (R191). -/
def ownStatus (_ : List Byte) (s : State) : State × Answer :=
  (s,
    answerOk
      ([s.link.session.code, byteOf s.sched.entries.length] ++ allVoices.flatMap (fun v => (s.voice v).statusBytes) ++
        allStreamSlots.flatMap (fun i => streamStatusBytes (s.stream i)) ++
        [byteOf s.freeCount, byteOf s.store.freePages.length, orNone (s.store.build.map Fin.val), s.time.sync.code,
          byteOf s.reports.queue.length, s.reports.nextSequence] ++
        be16 (halfOf s.link.discards) ++ be16 (halfOf s.link.overruns)))

/-- SYSTEM.RESET at the link (R169): AUDIO carries out the removals and ends, closings and disarmings; FULL is answered at
once, and its SOFT reset comes with the end of the reply. -/
def ownReset (f : List Byte) (s : State) : State × Answer :=
  if u8 f 0 = 0 then (s.quietAll .reset, answerOk []) else (s, answerOk [])

/-! ### The session (R167, R168) -/

/-- The session enters STALLED, with the actions of the orphan policy (R168). -/
def State.stall (s : State) : State :=
  let s1 := { s with link := { s.link with session := .stalled } }
  match s.link.orphan with
  | .silence => s1.quietAll .linkLost
  | .continue => s1

/-- The silence timeout is reached (R167). -/
def Link.silenceDue (l : Link) : Bool :=
  l.session == .opened && l.silenceTimeout != 0 && l.silenceTimeout ≤ l.silenceCount

/-- The session stalls at the silence timeout, when the count has reached it (R167). -/
def State.silence (s : State) : State :=
  if s.link.silenceDue then s.stall else s

/-- The retransmission timer is reached in an OPEN session (R178). -/
def State.timerDue (s : State) : Bool :=
  s.link.session == .opened && s.reports.timerReached s.now

/-- The report unit acts on the timer (R179): go-back, or the stall once the retry count is 3. -/
def State.retransmit (s : State) : State :=
  if s.timerDue then
    if s.reports.retry < Config.maxRetries then { s with reports := s.reports.goBack } else s.stall
  else s

/-! ### The transmitter (R164, R177) -/

/-- The report unit's report at the start of a report frame: the place and the report as handed over (R177). -/
def ReportUnit.handOver (u : ReportUnit) : Option (Nat × Report) :=
  u.toSend.bind fun k => (u.queue[k]?).map fun r => (k, r.handed)

/-- An idle transmitter begins the oldest pending reply, or else a report to send in an OPEN session (R164, R177). No report
is begun between the advance that reaches the silence timeout or the retransmission timer and what follows from it (R167,
R179). -/
def State.chooseFrame (s : State) : State :=
  if s.link.transmitter = .idle ∧ s.inReset = false then
    match s.link.replies with
    | p :: _ => { s with link := { s.link with transmitter := .reply (frame typeReply p.num p.body) } }
    | [] =>
      if s.link.session = .opened ∧ s.link.silenceDue = false ∧ s.timerDue = false then
        match s.reports.handOver with
        | some (k, r) =>
          { s with
            reports := { s.reports with queue := s.reports.queue.set k r }
            link := { s.link with transmitter := .report (frame typeReport r.sequence r.body) } }
        | none => s
      else s
  else s

/-- A reply frame is on TXD (R164). -/
def Transmitter.isReply (t : Transmitter) : Bool :=
  match t with
  | .reply _ => true
  | _ => false

/-- The reply on TXD stops being pending, and the transmitter becomes idle (R163, R164). -/
def State.replyLeft (s : State) : State :=
  { s with link := { s.link with transmitter := .idle, replies := s.link.replies.drop 1 } }

/-- The last byte of a report frame has left TXD (R178). -/
def State.reportSent (s : State) : State :=
  match s.link.transmitter with
  | .report _ =>
    { s with
      reports := { s.reports with queue := s.reports.queue.map (Report.lineEnded s.now) }
      link := { s.link with transmitter := .idle } }
  | _ => s

/-! ### Taking requests (R161 to R163) -/

/-- The scope a SYSTEM.RESET body carries, none for other requests (R161, R162, log entry 18). -/
def scopeOf (code : Byte) (f : List Byte) : Option Byte :=
  if code = Request.systemReset.code then f.head? else none

/-- The request is a SYSTEM.RESET with scope FULL (R162). -/
def isFullReset (code : Byte) (f : List Byte) : Bool :=
  scopeOf code f == some 1

/-- The cache entry that answers a request (R161 step 2): same tag, same code, and for a SYSTEM.RESET the same scope. -/
def Link.cached (l : Link) (num code : Byte) (f : List Byte) : Option CacheEntry :=
  if num = 0 ∨ code = Request.linkOpen.code then none
  else l.cache.find? fun e => e.tag == num && e.code == code && e.scope == scopeOf code f

/-- Recording a reply (R162): an entry of the same tag is removed, or the oldest of 8, and the new entry is appended. -/
def Link.record (l : Link) (num code : Byte) (f body : List Byte) : Link :=
  if num = 0 ∨ code = Request.linkOpen.code ∨ isFullReset code f then l
  else
    let kept := l.cache.filter fun e => e.tag != num
    let room := if kept.length = l.cache.length ∧ Config.cacheEntries ≤ l.cache.length then kept.drop 1 else kept
    { l with cache := room ++ [{ tag := num, code := code, scope := scopeOf code f, body := body }] }

/-- A reply joins the pending replies (R163). -/
def Link.push (l : Link) (num : Byte) (body : List Byte) (full : Bool) : Link :=
  { l with replies := l.replies ++ [{ num := num, body := body, full := full }] }

/-- The reply built for a request joins the pending replies and is recorded (R161, R162, R189). A SYSTEM.RESET FULL that
was carried out brings the SOFT reset at its reply's end (R169). -/
def State.reply (s : State) (num code : Byte) (f : List Byte) (a : Answer) : State :=
  let body := replyBody code a
  { s with link := (s.link.push num body (isFullReset code f && a.status == .ok)).record num code f body }

/-- A valid request frame is handed over: the silence count is set to 0 (R161, R167). -/
def Link.heard (l : Link) : Link :=
  { l with silenceCount := 0 }

/-- The taking of a valid request frame at the link as it stands (R161): overrun at 2 pending replies, the reply cache, and
otherwise `answer`, which checks and carries out the request. -/
def State.takeNow (s : State) (num code : Byte) (f : List Byte) (answer : State → State × Answer) : State :=
  let s1 := { s with link := s.link.heard }
  if Config.pendingReplyLimit ≤ s.link.replies.length then
    { s1 with link := { s1.link with overruns := min (s1.link.overruns + 1) 65535 } }
  else
    match s.link.cached num code f with
    | some e => { s1 with link := s1.link.push num e.body false }
    | none =>
      let (s2, a) := answer s1
      s2.reply num code f a

/-- An event that an advance has made due comes before what arrives on the line after that advance. It is taken where it is
due, and an idle transmitter then begins the frame it has made ready, so that a reply built later waits for it (R164, R170).
-/
def State.first (due : Bool) (event : State → State) (s : State) : State :=
  if due then (event s).chooseFrame else s

/-- Where an advance has brought the silence count to the timeout, or has reached the retransmission timer, the session
stalls, or the reports go back, before a request that comes after it is taken (R167, R170, R183). -/
def State.linkFirst (s : State) : State :=
  let s1 := s.first s.link.silenceDue State.silence
  s1.first s1.timerDue State.retransmit

/-- A valid request frame is handed over (R161), after what an advance has made due at the link. -/
def State.take (s : State) (num code : Byte) (f : List Byte) (answer : State → State × Answer) : State :=
  s.linkFirst.takeNow num code f answer

/-- The common checks and then the request's owner (R161 steps 3 and 4, R186). -/
def checked (r : Request) (own : List Byte → State → State × Answer) (f : List Byte) (s : State) : State × Answer :=
  match r.check s.link.session f with
  | some a => (s, a)
  | none => own f s

/-- The taking of a request whose code is known (R161). -/
def State.takeRequest (s : State) (r : Request) (own : List Byte → State → State × Answer) (num : Byte)
    (f : List Byte) : State :=
  s.take num r.code f (checked r own f)

end Sys2Proof.Machine
end

