-- ==== Sys2Proof/Machine/Mixing.lean ====
section
/-! DEFINITION. The pitch map's requests, the oscillators, and the mixer: contributions, the mix, ducking, mute and the
output pins (chapter 5). -/

namespace Sys2Proof.Machine

/-! ### The pitch map (R91 to R93) -/

/-- Replace consecutive entries of the pitch map (R91). -/
def writePeriods (m : Vector Nat 128) (first : Nat) (values : List Nat) : Vector Nat 128 :=
  Vector.ofFn fun n : Note =>
    if first ≤ n.val ∧ n.val < first + values.length then values.getD (n.val - first) 0 else m[n]

/-- A period value the map does not take (R89, R91). -/
def badPeriod (p : Nat) : Bool :=
  within 1 31 p

/-- MAP.WRITE at the tone generator (R91). -/
def ownMapWrite (f : List Byte) (s : State) : State × Answer :=
  let first := (u8 f 0).toNat
  let count := (u8 f 1).toNat
  let values := readPeriods f count
  if 127 < first + count - 1 then (s, badParam 1)
  else
    match values.findIdx? badPeriod with
    | some k => (s, badParam 3 (byteOf k))
    | none => ({ s with pitchMap := writePeriods s.pitchMap first values }, answerOk [u8 f 0, u8 f 1])

/-- MAP.READ at the tone generator; it changes nothing (R92). -/
def ownMapRead (f : List Byte) (s : State) : State × Answer :=
  let first := (u8 f 0).toNat
  let count := (u8 f 1).toNat
  if 127 < first + count - 1 then (s, badParam 1)
  else (s, answerOk ([u8 f 0, u8 f 1] ++ (((s.pitchMap.toList.drop first).take count).flatMap fun p => be16 (halfOf p))))

/-- MAP.RESTORE at the tone generator (R93). -/
def ownMapRestore (_ : List Byte) (s : State) : State × Answer :=
  ({ s with pitchMap := defaultPitchMap }, answerOk [])

/-! ### Oscillators (R94 to R96) -/

/-- One shift of the noise register: every value moves up one place, and place 0 takes the exclusive-or of places 14 and
13 (R96). -/
def noiseShiftReg (r : BitVec 15) : BitVec 15 :=
  (r <<< 1) ||| (if r.getLsbD 14 != r.getLsbD 13 then 1#15 else 0#15)

/-- One voice clock of an oscillator at period P (R94): the phase count is raised by 1, and set to 0 at 2P or more; the
register shifts when the count becomes P and when it becomes 0. At period 0 both hold still. -/
def Oscillator.clock (period : Nat) (o : Oscillator) : Oscillator :=
  if period = 0 then o
  else
    let raised := o.phaseCount + 1
    let count := if 2 * period ≤ raised then 0 else raised
    { o with phaseCount := count, noise := if count = period ∨ count = 0 then noiseShiftReg o.noise else o.noise }

/-- A number of voice clocks (R94). -/
def Oscillator.runClocks (period : Nat) : Nat → Oscillator → Oscillator
  | 0, o => o
  | n + 1, o => Oscillator.runClocks period n (o.clock period)

/-- The voice clocks to the next shift of the register (R94). -/
def Oscillator.clocksToShift (period : Nat) (o : Oscillator) : Nat :=
  if o.phaseCount < period then period - o.phaseCount else max 1 (2 * period - o.phaseCount)

/-- The period in force on a voice, 0 without a player (R70, R97). -/
def Voice.period (r : Voice) : Nat :=
  (r.player.map fun p => p.period).getD 0

/-- The oscillator runs to its next shift, where that falls before the next output sample (R94, log entry 6). -/
def Voice.noiseShift (r : Voice) : Voice :=
  match r.osc with
  | some o =>
    let k := o.clocksToShift r.period
    if r.period ≠ 0 ∧ o.clocks + k ≤ Config.clocksPerSample then
      let o' := o.runClocks r.period k
      { r with osc := some { o' with clocks := o.clocks + k } }
    else r
  | none => r

/-- The oscillator has run the voice clocks up to an output sample (chapter 5, introduction; log entry 6). -/
def Voice.toSample (r : Voice) : Voice :=
  { r with
    osc := r.osc.map fun o =>
      let o' := o.runClocks r.period (Config.clocksPerSample - o.clocks)
      { o' with clocks := 0 } }

/-- The output of a synth voice is high (R95, R96). -/
def outputHigh (shape : Shape) (period : Nat) (o : Oscillator) : Bool :=
  match shape with
  | .square => o.phaseCount < period
  | .pulse25 => o.phaseCount < period / 2
  | .pulse12 => o.phaseCount < period / 4
  | .noise => o.noise.getLsbD 0

/-- The contribution of a synth voice (R97): ±8 × its effective level, 0 when IDLE or at period 0. -/
def Voice.contribution (r : Voice) (duck : Nat) : Int :=
  match r.state, r.player, r.osc with
  | .idle, _, _ => 0
  | _, some p, some o =>
    if p.period = 0 then 0
    else
      let e : Int := ((r.env.level - duck : Nat) : Int)
      if outputHigh p.shape p.period o then 8 * e else -(8 * e)
  | _, _, _ => 0

/-- The contribution of voice 6 from its sample (R98), truncated toward zero. -/
def Voice.streamContribution (r : Voice) (sample : Nat) : Int :=
  if r.state = .idle then 0 else (((sample : Int) - 128) * (r.env.level : Int)).tdiv 15

/-- Scale by the master factor and clip (R99 steps 2 and 3). -/
def mixValue (sum : Int) (factor : Nat) : Int :=
  let scaled := (sum * (factor : Int)).tdiv 31
  if 511 < scaled then 511 else if scaled < -512 then -512 else scaled

/-- The sum of the seven contributions (R99 step 1). -/
def State.mixSum (s : State) (sample : Nat) : Int :=
  (synthVoices.map fun v => (s.voice v).contribution s.mixer.duckAmount).sum +
    (s.voice streamVoice).streamContribution sample

/-- The oscillators of the synth voices run up to the output sample. -/
def State.clockVoices (s : State) : State :=
  { s with alloc := { s.alloc with voices := s.alloc.voices.map Voice.toSample } }

/-- An output sample (R99): a used-up block is finished first (R132 step 1), the stream unit hands over its sample, the
seven contributions are added, scaled and clipped, and the value is driven for one output period (R103). -/
def State.sampleOutput (s : State) : State :=
  let s1 := s.finishBlock.clockVoices
  let (sample, s2) := s1.takeSample
  let v := mixValue (s2.mixSum sample) s2.mixer.masterFactor
  { s2 with mixer := { s2.mixer with value := v, pwm := pwmOf s2.mixer.outputMode v } }

/-! ### Ducking, mute and OUTPUT.SET (R100 to R102) -/

/-- The duck amount moves 1 toward the target when the duck count has reached 8 (R100). -/
def State.duckStep (s : State) : State :=
  if s.mixer.duckDue then { s with mixer := s.mixer.duckMove s.duckTarget } else s

/-- The mixer's work at a tick advance (R100, R101): the duck count is set to 0 or raised, MUTEN is sampled, and M moves 1
step. -/
def Mixer.advance (m : Mixer) (target : Nat) (muten : Bool) : Mixer :=
  let muted := m.softMute || !muten
  { m with
    duckCount := if m.duckAmount = target then 0 else m.duckCount + 1
    muten := muten
    masterFactor :=
      if muted then m.masterFactor - 1
      else if m.masterFactor < m.masterVolume then m.masterFactor + 1
      else if m.masterVolume < m.masterFactor then m.masterFactor - 1
      else m.masterFactor }

/-- The settings an OUTPUT.SET replaces; a duck depth sets the duck count to 0 (R102). -/
def Mixer.set (m : Mixer) (f : List Byte) : Mixer :=
  { m with
    masterVolume := if flag f 0 0 then (u8 f 1).toNat else m.masterVolume
    duckDepth := if flag f 0 1 then (u8 f 2).toNat else m.duckDepth
    duckCount := if flag f 0 1 then 0 else m.duckCount
    softMute := if flag f 0 2 then u8 f 3 == 1 else m.softMute
    outputMode := if flag f 0 3 then (if u8 f 4 = 1 then .single else .bridge) else m.outputMode }

/-- The results of OUTPUT.SET (R102, 11.6). -/
def Mixer.results (m : Mixer) : List Byte :=
  [byteOf m.masterVolume, byteOf m.duckDepth, yesNo m.softMute, m.outputMode.code, byteOf m.masterFactor,
    byteOf m.duckAmount, yesNo m.muten]

/-- OUTPUT.SET at the mixer (R102). A move of the duck amount that an advance has called for is made before a duck depth is
taken (R100, log entry 19). -/
def ownOutputSet (f : List Byte) (s : State) : State × Answer :=
  let s1 := if flag f 0 1 then s.duckStep else s
  let s2 := { s1 with mixer := s1.mixer.set f }
  (s2, answerOk s2.mixer.results)

end Sys2Proof.Machine
end

