-- ==== Sys2Proof/Machine/Phrases.lean ====
section
/-! DEFINITION. The phrase store's requests: PHRASE.BEGIN, PHRASE.ADD, PHRASE.END, PHRASE.DROP and PHRASE.INFO
(chapter 3). -/

namespace Sys2Proof.Machine

/-- The free page count as a result byte (R54). -/
def State.freePageByte (s : State) : Byte :=
  byteOf s.store.freePages.length

/-- PHRASE.BEGIN at the phrase store (R57). -/
def ownBegin (f : List Byte) (s : State) : State × Answer :=
  let id := phraseOf (u8 f 0)
  if (s.phrase id).state ≠ .empty then (s, refuse .exists)
  else if s.store.build.isSome then (s, refuse .buildBusy)
  else
    let header : Header :=
      { shape := Shape.ofCode (u8 f 1)
        rates := { attack := (u8 f 2).toNat, release := (u8 f 3).toNat }
        tempoRelative := u8 f 4 == 1 }
    let slot : PhraseSlot := { state := .building, header := some header, stepCount := 0, pages := [], refs := 0 }
    ({ s with store := { s.store.putSlot id slot with build := some id } }, answerOk [byteOf id.val, s.freePageByte])

/-- The pages a phrase of n steps holds: ceil(n / 16) (R53). -/
def pagesFor (n : Nat) : Nat :=
  (n + 15) / Config.pageCells

/-- Store one step in cell i of a page list (R53). -/
def storeStep (pool : Vector Page 64) (pages : List PageId) (i : Nat) (st : Step) : Vector Page 64 :=
  match pages[i / Config.pageCells]? with
  | some g => pool.set g (pool[g].set (i % Config.pageCells) (some st) (Nat.mod_lt i (by decide)))
  | none => pool

/-- Store steps in the cells from index i on, in order (R59 step 2). -/
def storeSteps (pool : Vector Page 64) (pages : List PageId) : Nat → List Step → Vector Page 64
  | _, [] => pool
  | i, st :: rest => storeSteps (storeStep pool pages i st) pages (i + 1) rest

/-- Append steps to the building phrase, taking the pages it needs from the head of the free page list (R59). -/
def PhraseStore.addSteps (ps : PhraseStore) (id : PhraseId) (steps : List Step) : PhraseStore :=
  let p := ps.slots[id]
  let need := pagesFor (p.stepCount + steps.length) - p.pages.length
  let pages := p.pages ++ ps.freePages.take need
  { slots := ps.slots.set id { p with stepCount := p.stepCount + steps.length, pages := pages }
    pool := storeSteps ps.pool pages p.stepCount steps
    freePages := ps.freePages.drop need
    build := ps.build }

/-- PHRASE.ADD at the phrase store: the conditions of R58 in their order, and then R59. -/
def ownAdd (f : List Byte) (s : State) : State × Answer :=
  match s.store.build with
  | none => (s, refuse .phraseState)
  | some id =>
    let p := s.phrase id
    let n := (u8 f 0).toNat
    if Config.maxSteps < p.stepCount + n then (s, { status := .tooLong, results := be16 (halfOf p.stepCount) })
    else if s.store.freePages.length < pagesFor (p.stepCount + n) - p.pages.length then
      (s, { status := .noSpace, results := [s.freePageByte] })
    else
      let steps := readSteps f n id
      match steps.findIdx? Option.isNone with
      | some k => (s, badParam 2 (byteOf k))
      | none =>
        let s' := { s with store := s.store.addSteps id (steps.filterMap (fun x => x)) }
        (s', answerOk (be16 (halfOf (s'.phrase id).stepCount) ++ [byteOf (s'.phrase id).pages.length, s'.freePageByte]))

/-- NOTE and REST are the timed kinds (R52). -/
def Step.timed : Step → Bool
  | .note .. => true
  | .rest .. => true
  | _ => false

/-- The number of timed steps of a phrase (R62). -/
def PhraseStore.timedCount (ps : PhraseStore) (p : PhraseSlot) : Nat :=
  (List.range p.stepCount).countP fun i => (ps.stepAt p i).any Step.timed

/-- PHRASE.END at the phrase store (R60). -/
def ownEnd (_ : List Byte) (s : State) : State × Answer :=
  match s.store.build with
  | none => (s, refuse .phraseState)
  | some id =>
    let p := s.phrase id
    if s.store.timedCount p = 0 then (s, refuse .noTimedStep)
    else
      ({ s with store := { s.store.putSlot id { p with state := .ready } with build := none } },
        answerOk ([byteOf id.val] ++ be16 (halfOf p.stepCount) ++ [byteOf p.pages.length]))

/-- A dropped phrase: its pages go to the tail of the free page list, its slot becomes EMPTY, and a build context that
names it is emptied (R61, R54). -/
def PhraseStore.drop (ps : PhraseStore) (id : PhraseId) : PhraseStore :=
  { slots := ps.slots.set id PhraseSlot.empty
    pool := ps.pool
    freePages := ps.freePages ++ ps.slots[id].pages
    build := if ps.build = some id then none else ps.build }

/-- PHRASE.DROP at the phrase store (R61). -/
def ownDrop (f : List Byte) (s : State) : State × Answer :=
  let id := phraseOf (u8 f 0)
  let p := s.phrase id
  if p.state = .empty then (s, refuse .phraseState)
  else if 0 < p.refs then (s, { status := .inUse, results := [byteOf p.refs] })
  else
    let s' := { s with store := s.store.drop id }
    (s', answerOk [byteOf id.val, byteOf p.pages.length, s'.freePageByte])

/-- The header results of PHRASE.INFO: all zero when EMPTY (R62). -/
def PhraseSlot.headerBytes (p : PhraseSlot) : List Byte :=
  match p.header with
  | some h => [h.shape.code, byteOf h.rates.attack, byteOf h.rates.release, yesNo h.tempoRelative]
  | none => [0, 0, 0, 0]

/-- PHRASE.INFO at the phrase store; it changes nothing (R62). -/
def ownInfo (f : List Byte) (s : State) : State × Answer :=
  let p := s.phrase (phraseOf (u8 f 0))
  (s,
    answerOk
      ([p.state.code] ++ p.headerBytes ++ be16 (halfOf p.stepCount) ++ [byteOf p.pages.length, byteOf p.refs] ++
        be16 (halfOf (s.store.timedCount p)) ++ p.pages.map fun g => byteOf g.val))

end Sys2Proof.Machine
end

