-- ==== Sys2Proof/Machine/Streams.lean ====
section
/-! DEFINITION. The stream unit's requests and starve timer: STREAM.OPEN, STREAM.DATA, STREAM.END, STREAM.ABORT
(chapter 7). -/

namespace Sys2Proof.Machine

/-- The free block count as a result byte (R124). -/
def State.freeByte (s : State) : Byte :=
  byteOf s.freeCount

/-- The lowest-numbered CLOSED slot (R126). -/
def State.closedSlot (s : State) : Option StreamSlotId :=
  allStreamSlots.find? fun i => (s.stream i).isNone

/-- The stream a STREAM.OPEN sets up (R126). -/
def OpenStream.opened (f : List Byte) : OpenStream :=
  { state := .filling, id := u8 f 0, rate := Fin.ofNat 4 (u8 f 1).toNat, prefill := (u8 f 2).toNat
    policy := if u8 f 3 = 1 then .finish else .pause
    expected := 0, last := false, filled := [], bound := none, read := none, starve := none }

/-- STREAM.OPEN at the stream unit (R126). -/
def ownOpen (f : List Byte) (s : State) : State × Answer :=
  let refusal : Answer :=
    { status := .streamState, results := [s.freeByte, streamCode (s.stream 0), streamCode (s.stream 1)] }
  if (s.openSlot (u8 f 0)).isSome then (s, refusal)
  else
    match s.closedSlot with
    | none => (s, refusal)
    | some i => (s.putStream i (some (OpenStream.opened f)), answerOk [byteOf i.val, s.freeByte])

/-- The six result bytes of a STREAM.DATA reply (R127, R189): outcome, expected sequence, state, list length, free count. -/
def State.dataResults (s : State) (outcome : Byte) (t : Option OpenStream) : List Byte :=
  [outcome] ++ be16 ((t.map fun x => x.expected).getD 0) ++
    [streamCode t, byteOf ((t.map fun x => x.filled.length).getD 0), s.freeByte]

/-- A stream after a block was stored for it at its tail (R128 steps 1 and 2). -/
def OpenStream.stored (t : OpenStream) (b : BlockId) : OpenStream :=
  { t with filled := t.filled ++ [b], expected := t.expected + 1 }

/-- The block under the expected sequence is stored (R128): it is taken from the head of the free list, and the stream
becomes READY or resumes where that is called for. -/
def State.storeBlock (s : State) (i : StreamSlotId) (t : OpenStream) (data : List Byte) : State :=
  match s.streams.freeBlocks with
  | [] => s
  | b :: rest =>
    let t1 : OpenStream := t.stored b
    let s1 : State :=
      { s with
        streams :=
          { s.streams with
            freeBlocks := rest, blocks := s.streams.blocks.set b (some { sequence := t.expected, data := data }) } }
    if t1.state = .filling ∧ t1.prefill ≤ t1.filled.length then
      (s1.putStream i (some { t1 with state := .ready })).askPass
    else if s1.canResume t1 ∧ t1.prefill ≤ t1.filled.length then s1.resume i t1
    else s1.putStream i (some t1)

/-- The starve timer at a tick advance (R136). -/
def OpenStream.advance (t : OpenStream) : OpenStream :=
  { t with starve := t.starve.map (· + 1) }

/-- The starve limit is reached (R136). -/
def OpenStream.limitReached (t : OpenStream) : Bool :=
  t.state == .starved && t.starve == some Config.starveLimit

/-- The starve limit of a slot (R136): the cue enters ENDING, reason UNDERRUN, and the timer becomes absent. -/
def State.starveLimit (s : State) (i : StreamSlotId) : State :=
  match s.stream i with
  | some t =>
    if t.limitReached then
      let s' := s.putStream i (some { t with starve := none })
      if s'.boundPlaying t then s'.enterEnding streamVoice .underrun else s'
    else s
  | none => s

/-- STREAM.DATA at the stream unit (R127). -/
def ownData (f : List Byte) (s : State) : State × Answer :=
  let refusal (st : Status) (t : Option OpenStream) : Answer := { status := st, results := s.dataResults 0xFF#8 t }
  match s.openSlot (u8 f 0) with
  | none => (s, refusal .streamState none)
  | some i =>
    match s.stream i with
    | none => (s, refusal .streamState none)
    | some t =>
      let seq := u16 f 1
      if t.last then (s, refusal .streamState (some t))
      else if seq = t.expected then
        if s.freeCount = 0 then (s, refusal .ringFull (some t))
        else
          let s' := s.storeBlock i t (f.drop 3)
          (s', answerOk (s'.dataResults 0 (s'.stream i)))
      else if within 1 32 (t.expected - seq).toNat then (s, answerOk (s.dataResults 1 (some t)))
      else (s, refusal .outOfOrder (some t))

/-- What STREAM.END does by the stream's state, LAST having become yes (R129). -/
def State.endData (s : State) (i : StreamSlotId) (t : OpenStream) : State :=
  let t1 := { t with last := true }
  if t1.state = .filling then (s.putStream i (some { t1 with state := .ready })).askPass
  else if s.canResume t1 then s.resume i t1
  else s.putStream i (some t1)

/-- STREAM.END at the stream unit (R129). -/
def ownStreamEnd (f : List Byte) (s : State) : State × Answer :=
  let refusal : Answer := { status := .streamState, results := [s.freeByte] }
  match s.openSlot (u8 f 0) with
  | none => (s, refusal)
  | some i =>
    match s.stream i with
    | none => (s, refusal)
    | some t =>
      if t.last then (s, refusal)
      else
        let s' := s.endData i t
        (s', answerOk [streamCode (s'.stream i), byteOf (((s'.stream i).map fun x => x.filled.length).getD 0), s'.freeByte])

/-- What STREAM.ABORT does to an open stream, with the outcome in its reply: NONE 0, REMOVED 1, ENDED 2 (R139). -/
def State.abort (s : State) (i : StreamSlotId) (t : OpenStream) : State × Byte :=
  match t.bound with
  | none => (s.closeStream i, 0)
  | some tag =>
    match s.place tag with
    | some (.current v _) => (s.endAtOnce v .aborted, 2)
    | some (.incoming v _) => (s.removeIncoming v .aborted, 1)
    | some (.entry _) => (s.removeEntry tag .aborted, 1)
    | none => (s.closeStream i, 0)

/-- STREAM.ABORT at the stream unit (R139). -/
def ownAbort (f : List Byte) (s : State) : State × Answer :=
  let refusal : Answer := { status := .streamState, results := [s.freeByte] }
  match s.openSlot (u8 f 0) with
  | none => (s, refusal)
  | some i =>
    match s.stream i with
    | none => (s, refusal)
    | some t =>
      let (s', outcome) := s.abort i t
      (s', answerOk [outcome, byteOf t.filled.length, s'.freeByte])

end Sys2Proof.Machine
end

