-- ==== Sys2Proof/Machine/Triggers.lean ====
section
/-! DEFINITION. The trigger unit: TRIGGER.ARM, TRIGGER.DISARM, qualification and firing (chapter 8). -/

namespace Sys2Proof.Machine

/-- The slot numbers in order. -/
def allTriggers : List TriggerId := [0, 1, 2, 3]

/-- Write a trigger slot. -/
def State.putTrigger (s : State) (i : TriggerId) (a : Option Armed) : State :=
  { s with triggers := { s.triggers with slots := s.triggers.slots.set i a } }

/-- The slot a byte names. -/
def triggerOf (b : Byte) : TriggerId := Fin.ofNat 4 b.toNat

/-- The conditions of R145 on a template, with the answer of the first that fails: the source is not STREAM (field 7), the
start is not AT (field 14), attack and release only with TONE or NOISE (field 20). -/
def armRefusal (f : List Byte) : Option Answer :=
  if u8 f 7 = 3 then some (badParam 7)
  else if u8 f 15 = 1 then some (badParam 14)
  else if u8 f 7 = 0 ∧ flag f 24 2 then some (badParam 20)
  else none

/-- The fields an accepted TRIGGER.ARM stores; the duck flag of the template is not kept (R144, R145). -/
def readArmed (f : List Byte) : Armed :=
  { line := if u8 f 1 = 0 then .trg0 else .trg1
    edge :=
      match (u8 f 2).toNat with
      | 0 => .fall
      | 1 => .rise
      | _ => .both
    mode := if u8 f 3 = 0 then .once else .repeating
    policy := if u8 f 4 = 0 then .ignore else .restart
    template := { readTemplate f 5 with duck := false } }

/-- TRIGGER.ARM at the trigger unit (R145). -/
def ownArm (f : List Byte) (s : State) : State × Answer :=
  match armRefusal f with
  | some a => (s, a)
  | none =>
    let i := triggerOf (u8 f 0)
    (s.putTrigger i (some (readArmed f)), answerOk [byteOf i.val, yesNo s.triggers.slots[i].isSome])

/-- TRIGGER.DISARM at the trigger unit (R146). -/
def ownDisarm (f : List Byte) (s : State) : State × Answer :=
  if u8 f 0 = 0 then
    let i := triggerOf (u8 f 1)
    (s.putTrigger i none, answerOk [yesNo s.triggers.slots[i].isSome])
  else (s.disarmAll, answerOk [byteOf (allTriggers.countP fun i => s.triggers.slots[i].isSome)])

/-! ### Firing (R147 to R151) -/

/-- An armed slot matches an edge of a line (R147). -/
def Armed.fires (a : Armed) (line : TrgLine) (rising : Bool) : Bool :=
  a.line == line &&
    match a.edge with
    | .fall => !rising
    | .rise => rising
    | .both => true

/-- The reason of a refused firing, by the status the conditions of R16 give (R148). -/
def refusalReason (a : Answer) : RefusalReason :=
  if a.status = .scheduleFull then .scheduleFull else if a.status = .tagInUse then .busy else .notReady

/-- A slot whose template tag is not live offers its template as a new cue (R148, R149). -/
def State.fireTemplate (s : State) (i : TriggerId) (t : Template) : State :=
  match s.playRefusal t with
  | some a => s.offer (.triggerRefused i t.tag (refusalReason a))
  | none => (s.accept t).offer (.triggerFired i t.tag)

/-- The service of one matching slot, by its retrigger policy when its tag is live (R148, R150). -/
def State.fireSlot (s : State) (i : TriggerId) (a : Armed) : State :=
  if s.isLive a.template.tag then
    match a.policy with
    | .ignore => s.offer (.triggerRefused i a.template.tag .busy)
    | .restart => (s.endLive a.template.tag .retriggered).fireTemplate i a.template
  else s.fireTemplate i a.template

/-- One slot at a firing event: served if it matches, and disarmed after it if its mode is ONCE (R147, R151). -/
def State.serveTrigger (line : TrgLine) (rising : Bool) (s : State) (i : TriggerId) : State :=
  match s.triggers.slots[i] with
  | some a =>
    if a.fires line rising then
      let s' := s.fireSlot i a
      if a.mode = .once then s'.putTrigger i none else s'
    else s
  | none => s

/-- The state of one line. -/
def TriggerUnit.lineOf (u : TriggerUnit) : TrgLine → TriggerLine
  | .trg0 => u.trg0
  | .trg1 => u.trg1

/-- The edge of a line has been taken (R147). -/
def TriggerUnit.clearEdge (u : TriggerUnit) : TrgLine → TriggerUnit
  | .trg0 => { u with trg0 := { u.trg0 with edge := none } }
  | .trg1 => { u with trg1 := { u.trg1 with edge := none } }

/-- The firing event of a line's qualified edge: the slots in order, and then the due events of the cues accepted with their
due ticks reached (R147, R8); without an edge, nothing happens. -/
def State.fire (s : State) (line : TrgLine) : State :=
  match (s.triggers.lineOf line).edge with
  | some rising =>
    (allTriggers.foldl (State.serveTrigger line rising) { s with triggers := s.triggers.clearEdge line }).dueSince
      s.sched.counter
  | none => s

end Sys2Proof.Machine
end

