-- ==== Sys2Proof/Machine/Receiver.lean ====
section
/-! DEFINITION. The receiver (9.2): assembling, testing, discarding, rescanning and abandoning frames, and the delivery
of a request to the block that owns it (R157 to R161). -/

namespace Sys2Proof.Machine

/-! ### Delivery (R161 step 4, 11.3) -/

/-- What the owner of a request does with it, once the common checks have passed (R161 step 4). -/
def Request.own (r : Request) : List Byte → State → State × Answer :=
  match r with
  | .linkOpen => ownLinkOpen
  | .status => ownStatus
  | .systemReset => ownReset
  | .reportSelect => ownSelect
  | .reportAck => ownAck
  | .cuePlay => ownPlay
  | .cueStop => ownStop
  | .cueCut => ownCut
  | .cueAdjust => ownAdjust
  | .cueQuery => ownQuery
  | .phraseBegin => ownBegin
  | .phraseAdd => ownAdd
  | .phraseEnd => ownEnd
  | .phraseDrop => ownDrop
  | .phraseInfo => ownInfo
  | .mapWrite => ownMapWrite
  | .mapRead => ownMapRead
  | .mapRestore => ownMapRestore
  | .outputSet => ownOutputSet
  | .clockSet => ownClockSet
  | .clockBar => ownClockBar
  | .clockRead => ownClockRead
  | .streamOpen => ownOpen
  | .streamData => ownData
  | .streamEnd => ownStreamEnd
  | .streamAbort => ownAbort
  | .triggerArm => ownArm
  | .triggerDisarm => ownDisarm

/-- The time base's work of an advance is completed: its beat edge and its loss check are taken (R119, R120, log entry 19).
-/
def State.beatFirst (s : State) : State :=
  let s1 := s.first s.time.beatAsk.isSome State.takeBeat
  s1.first s1.time.lossFound State.takeLoss

/-- A starve limit that the stream of this id has reached at an advance is taken (R140). -/
def State.limitFirst (s : State) (id : Byte) : State :=
  match s.openSlot id with
  | some i => s.first ((s.stream i).any OpenStream.limitReached) fun s => s.starveLimit i
  | none => s

/-- What an advance has made due at the owner of a request, where the owner's rules order the two: it is taken before the
request is carried out (R120, R140, log entry 3). -/
def State.ownerFirst (s : State) (r : Request) (f : List Byte) : State :=
  match r with
  | .clockSet | .clockBar | .clockRead => s.beatFirst
  | .streamData | .streamEnd => s.limitFirst (u8 f 0)
  | _ => s

/-- A request that has passed the common checks is carried out by its owner (R161 step 4). -/
def Request.carried (r : Request) (f : List Byte) (s : State) : State × Answer :=
  r.own f (s.ownerFirst r f)

/-- A request with no code, or with a code of no request (R186 check 1). -/
def unknown (s : State) : State × Answer :=
  (s, refuse .unknownRequest)

/-- A valid request frame is handed over with its NUM and its body (R157, R161). An empty body has no code, and is answered
with the code 0 (R186, R189). DESIGN CHOICE (log entry 32): for the reply cache it has the code 0 too. -/
def State.takeFrame (s : State) (num : Byte) (body : List Byte) : State :=
  match body with
  | [] => s.take num 0 [] unknown
  | code :: f =>
    match Request.ofCode code with
    | some r => s.takeRequest r r.carried num f
    | none => s.take num code f unknown

/-! ### The tests of a frame being assembled (R157) -/

/-- What the tests say of the bytes held. -/
inductive FrameTest where
  /-- No test fails and the frame is not complete. -/
  | more
  /-- The LEN, TYPE or check test fails. -/
  | bad
  /-- The last check byte passed: a valid request frame with this NUM and body. -/
  | good (num : Byte) (body : List Byte)
  deriving DecidableEq, Repr

/-- The LEN of the frame in hand. -/
def frameLen (held : List Byte) : Nat :=
  (u8 held 1).toNat

/-- The check of a whole frame is good (R156): the register over bytes 1 to the last body byte equals the two check
bytes. -/
def checkGood (held : List Byte) : Bool :=
  let n := frameLen held
  crc ((held.drop 1).take (n + 3)) == u16 held (n + 4)

/-- The test of the byte just held, the last of `held` (R157). -/
def testFrame (held : List Byte) : FrameTest :=
  let n := frameLen held
  if held.length = 2 then (if n ≤ Config.maxBody then .more else .bad)
  else if held.length = 3 then (if u8 held 2 = typeRequest then .more else .bad)
  else if held.length = n + 6 ∧ 3 < held.length then
    (if checkGood held then .good (u8 held 3) ((held.drop 4).take n) else .bad)
  else .more

/-! ### Receiving, discarding and rescanning (R157 to R159) -/

/-- The discard count is raised by 1, stopping at 65535 (R160). -/
def State.countDiscard (s : State) : State :=
  { s with link := { s.link with discards := min (s.link.discards + 1) 65535 } }

/-- The receiver holds these bytes; none while hunting. -/
def State.hold (s : State) (bytes : List Byte) : State :=
  { s with link := { s.link with receiver := { s.link.receiver with held := bytes } } }

/-- The receiver takes bytes in order with `held` in hand (R157), discarding the bytes held and rescanning them behind their
first where a test fails (R158), and handing valid frames over at once. With `abandon`, a frame that the bytes do not
complete is itself discarded (R159). The fuel bounds the recursion (log entry 24). -/
def State.receive (abandon : Bool) : Nat → List Byte → List Byte → State → State
  | 0, held, _, s => s.hold held
  | fuel + 1, held, [], s =>
    match held with
    | [] => s.hold []
    | _ :: rest => if abandon then State.receive abandon fuel [] rest s.countDiscard else s.hold held
  | fuel + 1, held, b :: input, s =>
    if held = [] then
      (if b = Config.startByte then State.receive abandon fuel [b] input s else State.receive abandon fuel [] input s)
    else
      let h := held ++ [b]
      match testFrame h with
      | .more => State.receive abandon fuel h input s
      | .bad => State.receive abandon fuel [] (h.tail ++ input) (s.hold (h ++ input)).countDiscard
      | .good num body => State.receive abandon fuel [] input (s.takeFrame num body)

/-- Fuel for n bytes: every discard drops at least one of them, and between two discards each is examined once. -/
def receiveFuel (n : Nat) : Nat :=
  (n + 2) * (n + 2)

/-- The frame in hand is discarded and the bytes held after its start byte are rescanned (R158); `abandon` as in R159. -/
def State.discardFrame (s : State) (abandon : Bool) : State :=
  match s.link.receiver.held with
  | [] => s
  | _ :: rest => State.receive abandon (receiveFuel rest.length) [] rest s.countDiscard

/-- A frame in hand is to be abandoned: its gap count has reached 21 (R159). -/
def Link.abandonDue (l : Link) : Bool :=
  !l.receiver.held.isEmpty && Config.gapLimit ≤ l.receiver.gap

/-- The abandonment of the frame in hand (R159). -/
def State.abandonFrame (s : State) : State :=
  if s.link.abandonDue then s.discardFrame true else s

/-- The byte is examined or held (R157): a byte that begins or continues a frame sets the gap count to 0. -/
def State.takeByte (s : State) (b : Byte) : State :=
  let r := s.link.receiver
  let s1 : State :=
    if r.held = [] ∧ b ≠ Config.startByte then s else { s with link := { s.link with receiver := { r with gap := 0 } } }
  State.receive false (receiveFuel (r.held.length + 1)) r.held [b] s1

/-- A byte arrives on RXD (R157), after an abandonment that an advance has made due (R159, R170). -/
def State.byteIn (s : State) (b : Byte) : State :=
  s.abandonFrame.takeByte b

/-- A character arrives with its stop bit low (R159), after an abandonment that an advance has made due (R159, R170). -/
def State.badStop (s : State) : State :=
  s.abandonFrame.discardFrame false

end Sys2Proof.Machine
end

