-- ==== Sys2Proof/Machine/Resets.lean ====
section
/-! DEFINITION. The resets: power-on, pin and SOFT, and the part held in reset (R25, R47, R67, R68, R88, R93, R104, R121,
R141, R153, R171, R172, R184). -/

namespace Sys2Proof.Machine

/-- Every block at its values after a reset of this cause with these straps, the phrase store and the pitch map as given.
The queue of waiting commands is no part of the block and is kept. -/
def State.restart (s : State) (cause : ResetCause) (straps : Straps) (store : PhraseStore)
    (pitchMap : Vector Nat 128) : State :=
  { inReset := false, straps := straps, sched := Scheduler.afterReset, alloc := Allocator.afterReset, store := store,
    pitchMap := pitchMap, mixer := Mixer.afterReset straps, time := TimeBase.afterReset, streams := StreamUnit.afterReset,
    triggers := TriggerUnit.afterReset, reports := ReportUnit.afterReset, link := Link.afterReset cause straps,
    pending := s.pending }

/-- A power-on reset: phrases are cleared and the pitch map takes its default contents (R67, R93). -/
def State.powerOn (s : State) (straps : Straps) : State :=
  s.restart .power straps PhraseStore.afterPowerOn defaultPitchMap

/-- A pin or SOFT reset: READY phrases and the pitch map are kept (R68, R93, R169). -/
def State.resetKept (s : State) (cause : ResetCause) (straps : Straps) : State :=
  s.restart cause straps s.store.afterPin s.pitchMap

/-- The reply of a SYSTEM.RESET FULL is on TXD. -/
def Link.sendingFull (l : Link) : Bool :=
  l.transmitter.isReply && l.replies.head?.any (·.full)

/-- The SOFT reset at a SYSTEM.RESET FULL reply's end, before the levels its strap sampling finds are given: those of the
latest reset stand until then (R169, log entry 11). -/
def State.softAtReplyEnd (s : State) : State :=
  let t := s.resetKept .soft s.straps
  { t with link := { t.link with strapsDue := true } }

/-- The levels that the strap sampling of a reset finds: the serial rate (R171) and the output mode (R103). -/
def State.sampleStraps (s : State) (straps : Straps) : State :=
  { s with
    straps := straps
    mixer := { s.mixer with outputMode := strapMode straps, pwm := pwmOf (strapMode straps) s.mixer.value }
    link := { s.link with serialRate := strapRate straps, strapsDue := false } }

/-- SOFT_RESET (R169): the reset itself while the SYSTEM.RESET FULL reply leaves TXD; after REPLY_SENT has performed it, the
levels of the straps it samples (log entry 11). -/
def State.softReset (s : State) (straps : Straps) : State :=
  if s.link.sendingFull then s.resetKept .soft straps
  else if s.link.strapsDue then s.sampleStraps straps
  else s

/-- The last byte of a reply frame has left TXD (R163): the reply stops being pending, and with that of a SYSTEM.RESET FULL
the part performs the SOFT reset (R169). -/
def State.replySent (s : State) : State :=
  if s.link.sendingFull then s.softAtReplyEnd
  else if s.link.transmitter.isReply then s.replyLeft
  else s

/-- The pins in reset: AOUTP and AOUTN low for the whole period (R103). -/
def PwmPeriod.low : PwmPeriod :=
  { pHigh := 0, nHigh := 0 }

/-- A pin reset is taken (R172): TXD high, RXD ignored and any frame lost, AOUTP and AOUTN low, ATTN low (R103, R171, R182;
log entry 10). -/
def State.takeReset (s : State) : State :=
  { s with
    inReset := true
    mixer := { s.mixer with pwm := PwmPeriod.low }
    reports := { s.reports with queue := [] }
    link := { s.link with transmitter := .idle, receiver := { held := [], gap := 0 } } }

end Sys2Proof.Machine
end

