-- ==== Sys2Proof/Machine/Events.lean ====
section
/-! DEFINITION. The events a tick or another event leaves outstanding: when each stands, what each does, and the order in
which an advance of the tick counter completes them before it begins (log entries 2 and 3). -/

namespace Sys2Proof.Machine

/-- The events that stand until they are taken. -/
inductive Event where
  | pass
  | due
  | internalEdge
  | syncEdge
  | loss
  | firing (line : TrgLine)
  | rate (v : VoiceId)
  | gate (v : VoiceId)
  | stepEnd (v : VoiceId)
  | handoff (v : VoiceId)
  | release (v : VoiceId)
  | deadline (tag : Tag)
  | starve (slot : StreamSlotId)
  | duck
  | abandon
  | silence
  | retransmit
  deriving DecidableEq, Repr

/-- The gate has run out (R78): 0 gate ticks are left while step ticks are left. -/
def Voice.gateOut (r : Voice) : Bool :=
  r.state == .active &&
    match r.player with
    | some p => p.gateTicks == some 0 && p.stepTicks.any (0 < ·)
    | none => false

/-- A timed step has ended (R78): 0 step ticks are left. -/
def Voice.stepOut (r : Voice) : Bool :=
  r.state == .active && r.player.any fun p => p.stepTicks == some 0

/-- The entry with this tag is WAITING at its deadline (R13). -/
def State.lateTag (s : State) (tag : Tag) : Bool :=
  match s.sched.entries.find? fun e => e.cue.tag == tag with
  | some e => s.late e
  | none => false

/-- The event stands. -/
def State.stands (s : State) : Event → Bool
  | .pass => 0 < s.alloc.passes
  | .due => s.sched.entries.any s.isDue
  | .internalEdge => s.time.beatAsk == some .internal
  | .syncEdge => s.time.beatAsk == some .sync
  | .loss => s.time.lossFound
  | .firing line => (s.triggers.lineOf line).edge.isSome
  | .rate v => (s.voice v).rateDue
  | .gate v => (s.voice v).gateOut
  | .stepEnd v => (s.voice v).stepOut
  | .handoff v => (s.voice v).state == .handoff && (s.voice v).env.level == 0
  | .release v => (s.voice v).state == .ending && (s.voice v).env.level == 0
  | .deadline tag => s.lateTag tag
  | .starve slot => (s.stream slot).any OpenStream.limitReached
  | .duck => s.mixer.duckDue
  | .abandon => s.link.abandonDue
  | .silence => s.link.silenceDue
  | .retransmit => s.timerDue

/-- One asked pass is taken (R30, R31). -/
def State.takePass (s : State) : State :=
  State.pass { s with alloc := { s.alloc with passes := s.alloc.passes - 1 } }

/-- The rate count step of a voice (R71). -/
def State.rateStep (s : State) (v : VoiceId) : State :=
  s.putVoice v (s.voice v).rateStep

/-- The gate of a NOTE runs out (R78): the envelope, moved first by R74 stage 1, enters RELEASE at the step's rate. -/
def State.gateEnd (s : State) (v : VoiceId) : State :=
  let r := (s.voice v).rateStep
  match r.player with
  | some p => s.putVoice v { r with player := some { p with gateTicks := none }, env := r.env.release p.rates.release }
  | none => s

/-- A timed step ends (R78), the envelope moved first by R74 stage 1. -/
def State.stepOver (s : State) (v : VoiceId) : State :=
  match (s.voice v).player with
  | some p => (s.rateStep v).endStep v p
  | none => s

/-- What the event does. -/
def State.carry (s : State) : Event → State
  | .pass => s.takePass
  | .due => s.dueEvent
  | .internalEdge => s.takeInternalEdge
  | .syncEdge => s.takeSyncEdge
  | .loss => s.takeLoss
  | .firing line => s.fire line
  | .rate v => s.rateStep v
  | .gate v => s.gateEnd v
  | .stepEnd v => s.stepOver v
  | .handoff v => s.handOver v
  | .release v => s.endToIdle v
  | .deadline tag => s.deadline tag
  | .starve slot => s.starveLimit slot
  | .duck => s.duckStep
  | .abandon => s.abandonFrame
  | .silence => s.silence
  | .retransmit => s.retransmit

/-- An event is taken where it stands, and changes nothing where it does not (log entry 2). -/
def State.happen (e : Event) (s : State) : State :=
  if s.stands e then s.carry e else s

/-! ### Completing what is outstanding (log entry 3) -/

/-- The events of one voice, in the order of R74. -/
def voiceEvents (v : VoiceId) : List Event :=
  [.rate v, .gate v, .stepEnd v, .handoff v, .release v]

/-- The events that may stand, in the order in which an advance of the tick counter completes them (log entry 3). -/
def State.candidates (s : State) : List Event :=
  [.pass, .due, .internalEdge, .syncEdge, .loss, .firing .trg0, .firing .trg1] ++
    allVoices.flatMap voiceEvents ++ s.sched.entries.map (fun e => .deadline e.cue.tag) ++
    allStreamSlots.map .starve ++ [.duck, .abandon, .silence, .retransmit]

/-- The first event that stands. -/
def State.outstanding (s : State) : Option Event :=
  s.candidates.find? s.stands

/-- Events are taken, first outstanding first, until none stands (log entry 3). -/
def State.settle : Nat → State → State
  | 0, s => s
  | n + 1, s =>
    match s.outstanding with
    | some e => State.settle n (s.carry e).chooseFrame
    | none => s

end Sys2Proof.Machine
end

