-- ==== Sys2Proof/Machine/Tick.lean ====
section
/-! DEFINITION. The advance of the tick counter (R105): the work each block does at it, up to the events it leaves
outstanding. -/

namespace Sys2Proof.Machine

/-- A trigger line takes the sample of an advance (R143). -/
def TriggerLine.advance (l : TriggerLine) (sample : Bool) : TriggerLine :=
  let r := l.qualifier.take sample
  { qualifier := r.1, edge := r.2 }

/-- The trigger unit at an advance: both lines are qualified (R143). -/
def TriggerUnit.advance (u : TriggerUnit) (lines : Lines) : TriggerUnit :=
  { u with trg0 := u.trg0.advance lines.trg0, trg1 := u.trg1.advance lines.trg1 }

/-- The link at an advance: the gap count of a frame in hand and the silence count of an OPEN session with a timeout
(R159, R167). -/
def Link.advance (l : Link) : Link :=
  { l with
    receiver := if l.receiver.held = [] then l.receiver else { l.receiver with gap := l.receiver.gap + 1 }
    silenceCount := if l.session = .opened ∧ l.silenceTimeout ≠ 0 then l.silenceCount + 1 else l.silenceCount }

/-- The stream unit at an advance: the starve timers (R136). -/
def StreamUnit.advance (u : StreamUnit) : StreamUnit :=
  { u with slots := u.slots.map fun t => t.map OpenStream.advance }

/-- The allocator's voices at an advance (R37, R71, R74, R98). -/
def Allocator.advance (a : Allocator) : Allocator :=
  { a with voices := a.voices.map Voice.advance }

/-- The tick counter is raised by 1, wrapping, before the time base's own work (R105, R119). -/
def TimeBase.count (t : TimeBase) : TimeBase :=
  { t with tick := t.tick + 1 }

/-- One advance of the tick counter (R105). -/
def State.advance (s : State) (lines : Lines) : State :=
  { s with
    time := s.time.count.advance lines.sync
    triggers := s.triggers.advance lines
    mixer := s.mixer.advance s.duckTarget lines.muten
    alloc := s.alloc.advance
    streams := s.streams.advance
    link := s.link.advance }

/-- The whole step: what the last advance and later events left outstanding is completed, and the counter advances (R105,
log entry 3). -/
def State.tick (s : State) (lines : Lines) : State :=
  (s.settle Config.settleFuel).advance lines

end Sys2Proof.Machine
end

