-- ==== Sys2Proof/Machine/Commands.lean ====
section
/-! DEFINITION. What every command shares: a part held in reset takes none but the end of the reset, and the
transmitter chooses its next frame at the end of each. -/

namespace Sys2Proof.Machine

/-- A command at the part: one held in reset is not moved by it (R172, log entry 10); otherwise it has its effect, and the
idle transmitter then begins the frame that is ready (R164, log entry 17). -/
def State.act (s : State) (f : State → State) : Host.Outcome State Fault Refusal :=
  .next (if s.inReset then s else (f s).chooseFrame)

/-- A request frame is handed over, after the abandonment of a frame that an advance has made due (R159, R170); its owner
is the one that answers a request of its code (R161, log entry 8). -/
def State.request (s : State) (r : Request) (num : Byte) (fields : List Byte) : Host.Outcome State Fault Refusal :=
  s.act fun s => s.abandonFrame.takeRequest r r.carried num fields

/-- An event of a block is taken where it stands (log entry 2). -/
def State.event (s : State) (e : Event) : Host.Outcome State Fault Refusal :=
  s.act (State.happen e)

end Sys2Proof.Machine
end

