-- ==== Sys2Proof/Machine/ClockCommands.lean ====
section
/-! DEFINITION. The meanings of CLOCK_SET, CLOCK_BAR, CLOCK_READ, TICK_ADVANCE, INTERNAL_BEAT_EDGE, SYNC_EDGE and SYNC_LOSS. -/

namespace Sys2Proof.Machine

/-- CLOCK_SET (R112, R116). -/
def execClockSet (num : Byte) (fields : List Byte) (s : State) : Host.Outcome State Fault Refusal :=
  s.request .clockSet num fields

/-- CLOCK_BAR (R113). -/
def execClockBar (num : Byte) (fields : List Byte) (s : State) : Host.Outcome State Fault Refusal :=
  s.request .clockBar num fields

/-- CLOCK_READ (R114). -/
def execClockRead (num : Byte) (fields : List Byte) (s : State) : Host.Outcome State Fault Refusal :=
  s.request .clockRead num fields

/-- TICK_ADVANCE (R105). -/
def execTickAdvance (lines : Lines) (s : State) : Host.Outcome State Fault Refusal :=
  s.act fun s => s.tick lines

/-- INTERNAL_BEAT_EDGE (R108 to R111). -/
def execInternalBeatEdge (s : State) : Host.Outcome State Fault Refusal :=
  s.event .internalEdge

/-- SYNC_EDGE (R117). -/
def execSyncEdge (s : State) : Host.Outcome State Fault Refusal :=
  s.event .syncEdge

/-- SYNC_LOSS (R118). -/
def execSyncLoss (s : State) : Host.Outcome State Fault Refusal :=
  s.event .loss

end Sys2Proof.Machine
end

