-- ==== Sys2Proof/Machine/CueCommands.lean ====
section
/-! DEFINITION. The meanings of CUE_PLAY, CUE_STOP, CUE_CUT, CUE_ADJUST, CUE_QUERY, DUE_EVENT and WAIT_DEADLINE. -/

namespace Sys2Proof.Machine

/-- CUE_PLAY (R16, R17). -/
def execCuePlay (num : Byte) (fields : List Byte) (s : State) : Host.Outcome State Fault Refusal :=
  s.request .cuePlay num fields

/-- CUE_STOP (R18 to R20, R22). -/
def execCueStop (num : Byte) (fields : List Byte) (s : State) : Host.Outcome State Fault Refusal :=
  s.request .cueStop num fields

/-- CUE_CUT (R18, R21, R22). -/
def execCueCut (num : Byte) (fields : List Byte) (s : State) : Host.Outcome State Fault Refusal :=
  s.request .cueCut num fields

/-- CUE_ADJUST (R23). -/
def execCueAdjust (num : Byte) (fields : List Byte) (s : State) : Host.Outcome State Fault Refusal :=
  s.request .cueAdjust num fields

/-- CUE_QUERY (R24). -/
def execCueQuery (num : Byte) (fields : List Byte) (s : State) : Host.Outcome State Fault Refusal :=
  s.request .cueQuery num fields

/-- DUE_EVENT (R8). -/
def execDueEvent (s : State) : Host.Outcome State Fault Refusal :=
  s.event .due

/-- WAIT_DEADLINE (R13). -/
def execWaitDeadline (tag : Tag) (s : State) : Host.Outcome State Fault Refusal :=
  s.event (.deadline tag)

end Sys2Proof.Machine
end

