-- ==== Sys2Proof/Machine/LinkCommands.lean ====
section
/-! DEFINITION. The meanings of the link's requests and events: LINK_OPEN, STATUS, SYSTEM_RESET_AUDIO, SYSTEM_RESET_FULL,
BYTE_RECEIVED, FRAME_DISCARD, FRAME_ABANDON, REPLY_SENT and SILENCE_TIMEOUT. -/

namespace Sys2Proof.Machine

/-- LINK_OPEN (R166). -/
def execLinkOpen (num : Byte) (fields : List Byte) (s : State) : Host.Outcome State Fault Refusal :=
  s.request .linkOpen num fields

/-- STATUS (R191). -/
def execStatus (num : Byte) (fields : List Byte) (s : State) : Host.Outcome State Fault Refusal :=
  s.request .status num fields

/-- SYSTEM_RESET_AUDIO (R169): SYSTEM.RESET with scope byte 0. -/
def execSystemResetAudio (num : Byte) (rest : List Byte) (s : State) : Host.Outcome State Fault Refusal :=
  s.request .systemReset num (0#8 :: rest)

/-- SYSTEM_RESET_FULL (R169): SYSTEM.RESET with scope byte 1. -/
def execSystemResetFull (num : Byte) (rest : List Byte) (s : State) : Host.Outcome State Fault Refusal :=
  s.request .systemReset num (1#8 :: rest)

/-- BYTE_RECEIVED (R157). -/
def execByteReceived (byte : Byte) (s : State) : Host.Outcome State Fault Refusal :=
  s.act fun s => s.byteIn byte

/-- FRAME_DISCARD (R158, R159): the frame in hand is discarded and the held bytes rescanned; while hunting nothing
happens (log entry 9). -/
def execFrameDiscard (s : State) : Host.Outcome State Fault Refusal :=
  s.act State.badStop

/-- FRAME_ABANDON (R159). -/
def execFrameAbandon (s : State) : Host.Outcome State Fault Refusal :=
  s.event .abandon

/-- REPLY_SENT (R163, R164). -/
def execReplySent (s : State) : Host.Outcome State Fault Refusal :=
  s.act State.replySent

/-- SILENCE_TIMEOUT (R167, R168). -/
def execSilenceTimeout (s : State) : Host.Outcome State Fault Refusal :=
  s.event .silence

end Sys2Proof.Machine
end

