-- ==== Sys2Proof/Machine/PhraseCommands.lean ====
section
/-! DEFINITION. The meanings of PHRASE_BEGIN, PHRASE_ADD, PHRASE_END, PHRASE_DROP and PHRASE_INFO. -/

namespace Sys2Proof.Machine

/-- PHRASE_BEGIN (R57). -/
def execPhraseBegin (num : Byte) (fields : List Byte) (s : State) : Host.Outcome State Fault Refusal :=
  s.request .phraseBegin num fields

/-- PHRASE_ADD (R58, R59). -/
def execPhraseAdd (num : Byte) (fields : List Byte) (s : State) : Host.Outcome State Fault Refusal :=
  s.request .phraseAdd num fields

/-- PHRASE_END (R60). -/
def execPhraseEnd (num : Byte) (fields : List Byte) (s : State) : Host.Outcome State Fault Refusal :=
  s.request .phraseEnd num fields

/-- PHRASE_DROP (R61). -/
def execPhraseDrop (num : Byte) (fields : List Byte) (s : State) : Host.Outcome State Fault Refusal :=
  s.request .phraseDrop num fields

/-- PHRASE_INFO (R62). -/
def execPhraseInfo (num : Byte) (fields : List Byte) (s : State) : Host.Outcome State Fault Refusal :=
  s.request .phraseInfo num fields

end Sys2Proof.Machine
end

