-- ==== Sys2Proof/Machine/PlayerCommands.lean ====
section
/-! DEFINITION. The meanings of RATE_COUNT_STEP, STEP_END and GATE_RUNS_OUT. -/

namespace Sys2Proof.Machine

/-- RATE_COUNT_STEP (R71). -/
def execRateCountStep (v : VoiceId) (s : State) : Host.Outcome State Fault Refusal :=
  s.event (.rate v)

/-- STEP_END (R78, R73). -/
def execStepEnd (v : VoiceId) (s : State) : Host.Outcome State Fault Refusal :=
  s.event (.stepEnd v)

/-- GATE_RUNS_OUT (R78). -/
def execGateRunsOut (v : VoiceId) (s : State) : Host.Outcome State Fault Refusal :=
  s.event (.gate v)

end Sys2Proof.Machine
end

