-- ==== Sys2Proof/Machine/ReportCommands.lean ====
section
/-! DEFINITION. The meanings of REPORT_SELECT, REPORT_ACK, REPORT_FRAME_SENT and RETRANSMISSION_TIMER. -/

namespace Sys2Proof.Machine

/-- REPORT_SELECT (R175). -/
def execReportSelect (num : Byte) (fields : List Byte) (s : State) : Host.Outcome State Fault Refusal :=
  s.request .reportSelect num fields

/-- REPORT_ACK (R180). -/
def execReportAck (num : Byte) (fields : List Byte) (s : State) : Host.Outcome State Fault Refusal :=
  s.request .reportAck num fields

/-- REPORT_FRAME_SENT (R178, R164). -/
def execReportFrameSent (s : State) : Host.Outcome State Fault Refusal :=
  s.act State.reportSent

/-- RETRANSMISSION_TIMER (R178, R179). -/
def execRetransmissionTimer (s : State) : Host.Outcome State Fault Refusal :=
  s.event .retransmit

end Sys2Proof.Machine
end

