-- ==== Sys2Proof/Machine/ResetCommands.lean ====
section
/-! DEFINITION. The meanings of POWER_ON_RESET, PIN_RESET, SOFT_RESET and PIN_RESET_TAKEN. -/

namespace Sys2Proof.Machine

/-- POWER_ON_RESET (R171, and the reset rule of every block). -/
def execPowerOnReset (straps : Straps) (s : State) : Host.Outcome State Fault Refusal :=
  .next (s.powerOn straps)

/-- PIN_RESET: RESETN returns high after a pin reset (R172; log entry 26). -/
def execPinReset (straps : Straps) (s : State) : Host.Outcome State Fault Refusal :=
  .next (s.resetKept .pin straps)

/-- SOFT_RESET at the end of a SYSTEM.RESET FULL reply (R169). -/
def execSoftReset (straps : Straps) (s : State) : Host.Outcome State Fault Refusal :=
  s.act fun s => s.softReset straps

/-- PIN_RESET_TAKEN: RESETN has been low for 2 ms (R172). -/
def execPinResetTaken (s : State) : Host.Outcome State Fault Refusal :=
  .next s.takeReset

end Sys2Proof.Machine
end

