-- ==== Sys2Proof/Machine/SoundCommands.lean ====
section
/-! DEFINITION. The meanings of MAP_WRITE, MAP_READ, MAP_RESTORE, OUTPUT_SET, DUCK_STEP, OUTPUT_SAMPLE and NOISE_SHIFT. -/

namespace Sys2Proof.Machine

/-- MAP_WRITE (R91). -/
def execMapWrite (num : Byte) (fields : List Byte) (s : State) : Host.Outcome State Fault Refusal :=
  s.request .mapWrite num fields

/-- MAP_READ (R92). -/
def execMapRead (num : Byte) (fields : List Byte) (s : State) : Host.Outcome State Fault Refusal :=
  s.request .mapRead num fields

/-- MAP_RESTORE (R93). -/
def execMapRestore (num : Byte) (fields : List Byte) (s : State) : Host.Outcome State Fault Refusal :=
  s.request .mapRestore num fields

/-- OUTPUT_SET (R102). -/
def execOutputSet (num : Byte) (fields : List Byte) (s : State) : Host.Outcome State Fault Refusal :=
  s.request .outputSet num fields

/-- DUCK_STEP (R100). -/
def execDuckStep (s : State) : Host.Outcome State Fault Refusal :=
  s.event .duck

/-- OUTPUT_SAMPLE (R99, R103, R132): one output sample; how many fall in a tick is the sender's (log entry 7). -/
def execOutputSample (s : State) : Host.Outcome State Fault Refusal :=
  s.act State.sampleOutput

/-- NOISE_SHIFT (R94, R96): the oscillator of a voice runs to its next shift (log entry 6). -/
def execNoiseShift (v : VoiceId) (s : State) : Host.Outcome State Fault Refusal :=
  s.act fun s => s.putVoice v (s.voice v).noiseShift

end Sys2Proof.Machine
end

