-- ==== Sys2Proof/Machine/StreamCommands.lean ====
section
/-! DEFINITION. The meanings of STREAM_OPEN, STREAM_DATA, STREAM_END, STREAM_ABORT, STARVE_LIMIT and BLOCK_USED_UP. -/

namespace Sys2Proof.Machine

/-- STREAM_OPEN (R126). -/
def execStreamOpen (num : Byte) (fields : List Byte) (s : State) : Host.Outcome State Fault Refusal :=
  s.request .streamOpen num fields

/-- STREAM_DATA (R127, R128). -/
def execStreamData (num : Byte) (fields : List Byte) (s : State) : Host.Outcome State Fault Refusal :=
  s.request .streamData num fields

/-- STREAM_END (R129). -/
def execStreamEnd (num : Byte) (fields : List Byte) (s : State) : Host.Outcome State Fault Refusal :=
  s.request .streamEnd num fields

/-- STREAM_ABORT (R139). -/
def execStreamAbort (num : Byte) (fields : List Byte) (s : State) : Host.Outcome State Fault Refusal :=
  s.request .streamAbort num fields

/-- STARVE_LIMIT (R136). -/
def execStarveLimit (slot : StreamSlotId) (s : State) : Host.Outcome State Fault Refusal :=
  s.event (.starve slot)

/-- BLOCK_USED_UP (R133, R135). -/
def execBlockUsedUp (s : State) : Host.Outcome State Fault Refusal :=
  s.act State.finishBlock

end Sys2Proof.Machine
end

