-- ==== Sys2Proof/Machine/TriggerCommands.lean ====
section
/-! DEFINITION. The meanings of TRIGGER_ARM, TRIGGER_DISARM and FIRING_EVENT. -/

namespace Sys2Proof.Machine

/-- TRIGGER_ARM (R145). -/
def execTriggerArm (num : Byte) (fields : List Byte) (s : State) : Host.Outcome State Fault Refusal :=
  s.request .triggerArm num fields

/-- TRIGGER_DISARM (R146). -/
def execTriggerDisarm (num : Byte) (fields : List Byte) (s : State) : Host.Outcome State Fault Refusal :=
  s.request .triggerDisarm num fields

/-- FIRING_EVENT (R147 to R151). -/
def execFiringEvent (line : TrgLine) (s : State) : Host.Outcome State Fault Refusal :=
  s.event (.firing line)

end Sys2Proof.Machine
end

