-- ==== Sys2Proof/Machine/VoiceCommands.lean ====
section
/-! DEFINITION. The meanings of ALLOCATION_PASS, HANDOFF_COMPLETE and RELEASE_COMPLETE. -/

namespace Sys2Proof.Machine

/-- ALLOCATION_PASS (R31 to R36). -/
def execAllocationPass (s : State) : Host.Outcome State Fault Refusal :=
  s.event .pass

/-- HANDOFF_COMPLETE (R38). -/
def execHandoffComplete (v : VoiceId) (s : State) : Host.Outcome State Fault Refusal :=
  s.event (.handoff v)

/-- RELEASE_COMPLETE (R42). -/
def execReleaseComplete (v : VoiceId) (s : State) : Host.Outcome State Fault Refusal :=
  s.event (.release v)

end Sys2Proof.Machine
end

