-- ==== Sys2Proof/Machine/Dispatch.lean ====
section
/-! DEFINITION. One arm for each command of Instr: the command's meaning, called directly. -/

namespace Sys2Proof.Machine

/-- The effect of a command on everything but the queue of waiting commands. -/
def exec (i : Instr) (s : State) : Host.Outcome State Fault Refusal :=
  match i with
  | .powerOnReset straps => Sys2Proof.Machine.execPowerOnReset straps s
  | .pinReset straps => Sys2Proof.Machine.execPinReset straps s
  | .softReset straps => Sys2Proof.Machine.execSoftReset straps s
  | .linkOpen num fields => Sys2Proof.Machine.execLinkOpen num fields s
  | .status num fields => Sys2Proof.Machine.execStatus num fields s
  | .systemResetAudio num rest => Sys2Proof.Machine.execSystemResetAudio num rest s
  | .systemResetFull num rest => Sys2Proof.Machine.execSystemResetFull num rest s
  | .reportSelect num fields => Sys2Proof.Machine.execReportSelect num fields s
  | .reportAck num fields => Sys2Proof.Machine.execReportAck num fields s
  | .cuePlay num fields => Sys2Proof.Machine.execCuePlay num fields s
  | .cueStop num fields => Sys2Proof.Machine.execCueStop num fields s
  | .cueCut num fields => Sys2Proof.Machine.execCueCut num fields s
  | .cueAdjust num fields => Sys2Proof.Machine.execCueAdjust num fields s
  | .cueQuery num fields => Sys2Proof.Machine.execCueQuery num fields s
  | .phraseBegin num fields => Sys2Proof.Machine.execPhraseBegin num fields s
  | .phraseAdd num fields => Sys2Proof.Machine.execPhraseAdd num fields s
  | .phraseEnd num fields => Sys2Proof.Machine.execPhraseEnd num fields s
  | .phraseDrop num fields => Sys2Proof.Machine.execPhraseDrop num fields s
  | .phraseInfo num fields => Sys2Proof.Machine.execPhraseInfo num fields s
  | .mapWrite num fields => Sys2Proof.Machine.execMapWrite num fields s
  | .mapRead num fields => Sys2Proof.Machine.execMapRead num fields s
  | .mapRestore num fields => Sys2Proof.Machine.execMapRestore num fields s
  | .outputSet num fields => Sys2Proof.Machine.execOutputSet num fields s
  | .clockSet num fields => Sys2Proof.Machine.execClockSet num fields s
  | .clockBar num fields => Sys2Proof.Machine.execClockBar num fields s
  | .clockRead num fields => Sys2Proof.Machine.execClockRead num fields s
  | .streamOpen num fields => Sys2Proof.Machine.execStreamOpen num fields s
  | .streamData num fields => Sys2Proof.Machine.execStreamData num fields s
  | .streamEnd num fields => Sys2Proof.Machine.execStreamEnd num fields s
  | .streamAbort num fields => Sys2Proof.Machine.execStreamAbort num fields s
  | .triggerArm num fields => Sys2Proof.Machine.execTriggerArm num fields s
  | .triggerDisarm num fields => Sys2Proof.Machine.execTriggerDisarm num fields s
  | .frameDiscard => Sys2Proof.Machine.execFrameDiscard s
  | .frameAbandon => Sys2Proof.Machine.execFrameAbandon s
  | .replySent => Sys2Proof.Machine.execReplySent s
  | .reportFrameSent => Sys2Proof.Machine.execReportFrameSent s
  | .tickAdvance lines => Sys2Proof.Machine.execTickAdvance lines s
  | .dueEvent => Sys2Proof.Machine.execDueEvent s
  | .waitDeadline tag => Sys2Proof.Machine.execWaitDeadline tag s
  | .allocationPass => Sys2Proof.Machine.execAllocationPass s
  | .handoffComplete voice => Sys2Proof.Machine.execHandoffComplete voice s
  | .releaseComplete voice => Sys2Proof.Machine.execReleaseComplete voice s
  | .rateCountStep voice => Sys2Proof.Machine.execRateCountStep voice s
  | .stepEnd voice => Sys2Proof.Machine.execStepEnd voice s
  | .gateRunsOut voice => Sys2Proof.Machine.execGateRunsOut voice s
  | .duckStep => Sys2Proof.Machine.execDuckStep s
  | .starveLimit slot => Sys2Proof.Machine.execStarveLimit slot s
  | .internalBeatEdge => Sys2Proof.Machine.execInternalBeatEdge s
  | .syncEdge => Sys2Proof.Machine.execSyncEdge s
  | .syncLoss => Sys2Proof.Machine.execSyncLoss s
  | .silenceTimeout => Sys2Proof.Machine.execSilenceTimeout s
  | .retransmissionTimer => Sys2Proof.Machine.execRetransmissionTimer s
  | .firingEvent line => Sys2Proof.Machine.execFiringEvent line s
  | .outputSample => Sys2Proof.Machine.execOutputSample s
  | .blockUsedUp => Sys2Proof.Machine.execBlockUsedUp s
  | .noiseShift voice => Sys2Proof.Machine.execNoiseShift voice s
  | .pinResetTaken => Sys2Proof.Machine.execPinResetTaken s
  | .byteReceived byte => Sys2Proof.Machine.execByteReceived byte s

end Sys2Proof.Machine
end

