-- ==== Sys2Proof/WellFormed.lean ====
section
/-! DEFINITION. Which commands can reach the part: a request frame has a body of at most 200 bytes (R155, R157), and
an event of a step player or an oscillator names a synth voice (R27). -/

namespace Sys2Proof

/-- The body of a request of this code, with these bytes after `used` leading bytes, fits LEN (R155). -/
def bodyFits (used : Nat) (fields : List Byte) : Bool :=
  used + fields.length ≤ Config.maxBody

/-- Voices 0 to 5 are synth voices (R27, R28). -/
def isSynth (v : VoiceId) : Bool :=
  v.val < 6

/-- A command of a kind the part can meet. -/
def Instr.wf : Instr → Bool
  | .powerOnReset _ => true
  | .pinReset _ => true
  | .softReset _ => true
  | .linkOpen _ f => bodyFits 1 f
  | .status _ f => bodyFits 1 f
  | .systemResetAudio _ f => bodyFits 2 f
  | .systemResetFull _ f => bodyFits 2 f
  | .reportSelect _ f => bodyFits 1 f
  | .reportAck _ f => bodyFits 1 f
  | .cuePlay _ f => bodyFits 1 f
  | .cueStop _ f => bodyFits 1 f
  | .cueCut _ f => bodyFits 1 f
  | .cueAdjust _ f => bodyFits 1 f
  | .cueQuery _ f => bodyFits 1 f
  | .phraseBegin _ f => bodyFits 1 f
  | .phraseAdd _ f => bodyFits 1 f
  | .phraseEnd _ f => bodyFits 1 f
  | .phraseDrop _ f => bodyFits 1 f
  | .phraseInfo _ f => bodyFits 1 f
  | .mapWrite _ f => bodyFits 1 f
  | .mapRead _ f => bodyFits 1 f
  | .mapRestore _ f => bodyFits 1 f
  | .outputSet _ f => bodyFits 1 f
  | .clockSet _ f => bodyFits 1 f
  | .clockBar _ f => bodyFits 1 f
  | .clockRead _ f => bodyFits 1 f
  | .streamOpen _ f => bodyFits 1 f
  | .streamData _ f => bodyFits 1 f
  | .streamEnd _ f => bodyFits 1 f
  | .streamAbort _ f => bodyFits 1 f
  | .triggerArm _ f => bodyFits 1 f
  | .triggerDisarm _ f => bodyFits 1 f
  | .frameDiscard => true
  | .frameAbandon => true
  | .replySent => true
  | .reportFrameSent => true
  | .tickAdvance _ => true
  | .dueEvent => true
  | .waitDeadline tag => tag != 0
  | .allocationPass => true
  | .handoffComplete _ => true
  | .releaseComplete _ => true
  | .rateCountStep _ => true
  | .stepEnd v => isSynth v
  | .gateRunsOut v => isSynth v
  | .duckStep => true
  | .starveLimit _ => true
  | .internalBeatEdge => true
  | .syncEdge => true
  | .syncLoss => true
  | .silenceTimeout => true
  | .retransmissionTimer => true
  | .firingEvent _ => true
  | .outputSample => true
  | .blockUsedUp => true
  | .noiseShift v => isSynth v
  | .pinResetTaken => true
  | .byteReceived _ => true

end Sys2Proof
end

