-- ==== Sys2Proof/Safety.lean ====
section
/-! DEFINITION. What a sound state of the part is, block by block, in the words of the rules that hold of every state at once:
R54 and R55 (pages), R89 (pitch map), R123 and R124 (blocks), R107 (time base), R97 to R101 (mixer), R162 and R163 (link),
R173 (reports); and when a request is taken. -/

namespace Sys2Proof.Machine

/-! ### The phrase store (R49, R53 to R55) -/

/-- A slot agrees with its state: an EMPTY one holds no header, steps or pages, any other holds a header, and the page list
holds ceil(step count / 16) pages of at most 256 steps (R49, R53). -/
def PhraseSlot.Ok (p : PhraseSlot) : Prop :=
  (p.state = .empty → p.header = none ∧ p.stepCount = 0) ∧ (p.state ≠ .empty → p.header.isSome) ∧
    p.pages.length = pagesFor p.stepCount ∧ p.stepCount ≤ Config.maxSteps

/-- Each of the 64 pages is on the free page list or in the page list of exactly one slot, and none appears twice (R54); a
slot is BUILDING exactly when the build context names it (R55). -/
def PhraseStore.Ok (ps : PhraseStore) : Prop :=
  (ps.freePages ++ ps.slots.toList.flatMap (·.pages)).Perm allPages ∧ (∀ p ∈ ps.slots.toList, p.Ok) ∧
    ∀ id : PhraseId, (ps.slots[id].state = .building ↔ ps.build = some id)

/-! ### The pitch map (R89) -/

/-- Every entry is 0 or a period of 32 to 65535 voice clocks (R89). -/
def mapOk (m : Vector Nat 128) : Prop :=
  ∀ n : Note, m[n] = 0 ∨ 32 ≤ m[n] ∧ m[n] ≤ 65535

/-! ### The stream pool (R123, R124) -/

/-- The filled list of a slot, empty when CLOSED (R123). -/
def filledOf (t : Option OpenStream) : List BlockId :=
  (t.map OpenStream.filled).getD []

/-- Each of the 32 blocks is on the free list or in the filled list of exactly one open stream (R124); a free block holds no
data, and a filled one 1 to 128 bytes; no two open slots hold the same stream id (R123). -/
def StreamUnit.Ok (u : StreamUnit) : Prop :=
  (u.freeBlocks ++ u.slots.toList.flatMap filledOf).Perm allBlocks ∧
    (∀ b ∈ u.freeBlocks, u.blocks[b] = none) ∧
    (∀ t ∈ u.slots.toList, ∀ b ∈ filledOf t, ∃ d, u.blocks[b] = some d ∧ 0 < d.data.length ∧ d.data.length ≤ 128) ∧
    ∀ t0 t1, u.slots[(0 : StreamSlotId)] = some t0 → u.slots[(1 : StreamSlotId)] = some t1 → t0.id ≠ t1.id

/-! ### The time base (R107) -/

/-- The beat lengths, the beats per bar and the beat position of R107 lie in their ranges and agree; the interval count is
not bounded here. The sync state is INTERNAL exactly when the source is, the beat-in-bar does not exceed the beats per bar
in force, and the loss reference tick is present in SEEKING and LOCKED only. A SYNC edge is asked only under source EXTERNAL
(R115). -/
def TimeBase.Ok (t : TimeBase) : Prop :=
  (t.sync = .internal ↔ t.source = .internal) ∧
    20 ≤ t.configuredBeat ∧ t.configuredBeat ≤ 5000 ∧ 20 ≤ t.effectiveBeat ∧ t.effectiveBeat ≤ 5000 ∧
    1 ≤ t.configuredBar ∧ t.configuredBar ≤ 16 ∧ 1 ≤ t.barInForce ∧ t.barInForce ≤ 16 ∧
    1 ≤ t.beatInBar ∧ t.beatInBar ≤ t.barInForce ∧
    (t.lossReference.isSome ↔ t.sync = .seeking ∨ t.sync = .locked) ∧
    (t.previousSync.isSome → t.sync = .locked) ∧
    (t.beatAsk = some .sync → t.source = .external)

/-! ### The mixer (R99 to R101) -/

/-- The mixer's volume, factor, duck depth and amount, and output value lie in their ranges (R99 to R101); the duck count is
not bounded here. -/
def Mixer.Ok (m : Mixer) : Prop :=
  m.masterVolume ≤ 31 ∧ m.masterFactor ≤ 31 ∧ m.duckDepth ≤ 15 ∧ m.duckAmount ≤ 15 ∧ -512 ≤ m.value ∧ m.value ≤ 511

/-! ### The link (R160, R162 to R164) -/

/-- The reply cache holds at most 8 entries with distinct tags, none with tag 0, and at most 2 replies are pending (R162);
a reply frame on TXD is that of the oldest pending reply (R163, R164); the two counts stay within 65535 (R160). -/
def Link.Ok (l : Link) : Prop :=
  l.cache.length ≤ 8 ∧ (l.cache.map CacheEntry.tag).Nodup ∧ 0 ∉ l.cache.map CacheEntry.tag ∧ l.replies.length ≤ 2 ∧
    (∀ bytes, l.transmitter = .reply bytes → ∃ p rest, l.replies = p :: rest ∧ bytes = frame typeReply p.num p.body) ∧
    l.discards ≤ 65535 ∧ l.overruns ≤ 65535

/-! ### The report queue (R173, R176) -/

/-- The sequences of the queue are consecutive modulo 256, and the next sequence follows the newest (R173). -/
def ReportUnit.Numbered (u : ReportUnit) : Prop :=
  ∀ (k : Nat) (h : k < u.queue.length), u.queue[k].sequence + byteOf (u.queue.length - k) = u.nextSequence

/-- At most 32 reports; at 32 the newest is an unsent REPORTS_LOST; the reports in flight are the oldest and at most 4; a
report not in flight has its frame due; the retry count is at most 3 (R173, R176, R179). -/
def ReportUnit.Ok (u : ReportUnit) : Prop :=
  u.Numbered ∧ u.queue.length ≤ 32 ∧ (u.queue.length = 32 → u.merges = true) ∧
    (∃ n, n ≤ 4 ∧ ∀ (k : Nat) (h : k < u.queue.length), u.queue[k].sent = decide (k < n)) ∧
    (∀ r ∈ u.queue, r.sent = false → r.frameDue = true) ∧ u.retry ≤ 3

/-! ### The whole part -/

/-- Every block named above is sound. -/
structure State.Sound (s : State) : Prop where
  store : s.store.Ok
  map : mapOk s.pitchMap
  streams : s.streams.Ok
  time : s.time.Ok
  mixer : s.mixer.Ok
  link : s.link.Ok
  reports : s.reports.Ok

/-! ### Where cues are held (R3, R4, R28, R29) -/

/-- A voice record agrees with its state (R29): IDLE holds no cue and no context; ACTIVE a PLAYING cue; ENDING a current cue
with its end reason and its release mode; HANDOFF a current cue ended STOLEN in FAST release and an incoming cue of strictly
higher priority. The cues it holds are of its class (R28). -/
def Voice.Ok (v : VoiceId) (r : Voice) : Prop :=
  (match r.state with
    | .idle => r = Voice.idle
    | .active => r.current.isSome ∧ r.incoming = none ∧ r.releaseMode = none
    | .ending => r.current.any (fun k => k.cue.endReason.isSome) ∧ r.incoming = none ∧ r.releaseMode.isSome
    | .handoff =>
      ∃ k c, r.current = some k ∧ r.incoming = some c ∧ r.releaseMode = some .fast ∧ k.cue.endReason = some .stolen ∧
        k.cue.priority < c.priority) ∧
    (∀ k, r.current = some k → v ∈ k.cue.source.voices) ∧ ∀ c, r.incoming = some c → v ∈ c.source.voices

/-- Every voice record is as R28 and R29 say. -/
def State.VoicesOk (s : State) : Prop :=
  ∀ v, (s.voice v).Ok v

/-- The tags of the cues a voice holds. -/
def Voice.tags (r : Voice) : List Tag :=
  (r.current.map fun k => k.cue.tag).toList ++ (r.incoming.map Cue.tag).toList

/-- The tags of every cue that the schedule and the voices hold (R3). -/
def State.heldTags (s : State) : List Tag :=
  (s.sched.entries.map fun e => e.cue.tag) ++ allVoices.flatMap fun v => (s.voice v).tags

/-- The live-tag set is the tags of the cues held, each once: a tag is held in one place only (R4), and no two schedule
entries carry the same tag (R5). -/
def State.TagsOk (s : State) : Prop :=
  s.sched.live.Nodup ∧ s.heldTags.Perm s.sched.live

/-- How often a cue names a phrase as its source: once or not at all. -/
def Cue.names (c : Cue) (id : PhraseId) : Nat :=
  match c.source with
  | .phrase i => if i = id then 1 else 0
  | _ => 0

/-- How often a voice names a phrase: by its current cue, its incoming cue and its call phrase (R63). -/
def Voice.names (r : Voice) (id : PhraseId) : Nat :=
  (r.current.map fun k => k.cue.names id).getD 0 + (r.incoming.map fun c => c.names id).getD 0 +
    match r.player.bind (·.call) with
    | some call => if call.phrase = id then 1 else 0
    | none => 0

/-- A phrase's reference count is the number of schedule and incoming cues naming it, plus the voices whose current cue names
it, plus the voices whose call phrase is it; a phrase with a non-zero count is READY (R63). -/
def State.RefsOk (s : State) : Prop :=
  ∀ id : PhraseId,
    (s.phrase id).refs =
        (s.sched.entries.map fun e => e.cue.names id).sum + (allVoices.map fun v => (s.voice v).names id).sum ∧
      ((s.phrase id).refs ≠ 0 → (s.phrase id).state = .ready)

/-- The cues of the part are held as R3, R4, R28 and R29 say, and the references they hold are counted (R63). -/
structure State.Placed (s : State) : Prop where
  voices : s.VoicesOk
  tags : s.TagsOk
  refs : s.RefsOk

/-! ### Quieting (R26, R48, R142, R154, R168, R169) -/

/-- The CUE_ENDED reports of a quieting, in their order (R26, R48, R168): the schedule entries in schedule order and the
incoming cues by voice, with the reason of the event and no voice; then the current cues by voice, a PLAYING one with that
reason and an ENDING one with the reason it holds (R43). -/
def State.endings (s : State) (reason : EndReason) : List ReportKind :=
  (s.sched.entries.map fun e => .cueEnded e.cue.tag reason none) ++
    (allVoices.filterMap fun v => (s.voice v).incoming.map fun c => .cueEnded c.tag reason none) ++
    allVoices.filterMap fun v =>
      (s.voice v).current.map fun k =>
        .cueEnded k.cue.tag (if (s.voice v).state = .active then reason else k.cue.endReason.getD reason) (some v)

/-- `t` is `s` with every cue removed or ended, every stream closed and every trigger slot disarmed: the outcome of
SYSTEM.RESET with scope AUDIO (reason RESET) and of a stall under orphan policy SILENCE (reason LINK_LOST). Each voice that
held a cue asks for a pass (R30); the session, the time base, the pitch map, the mixer's settings, the phrases and their
steps are kept. The reports offered are the CUE_ENDED of `endings`, with one STREAM_CREDIT among or behind them when the
free count was below 8 (R138, R142). -/
structure State.Quieted (s : State) (reason : EndReason) (t : State) : Prop where
  schedule : t.sched = { s.sched with entries := [], live := [] }
  voices : ∀ v, t.voice v = Voice.idle
  passes : t.alloc.passes = s.alloc.passes + allVoices.countP fun v => (s.voice v).current.isSome
  phrases : ∀ id, t.phrase id = { s.phrase id with refs := 0 }
  steps : t.store = { s.store with slots := t.store.slots }
  closed : ∀ i, t.stream i = none
  blocks : t.streams.freeBlocks.Perm allBlocks
  disarmed : ∀ i : TriggerId, t.triggers.slots[i] = none
  lines : t.triggers.trg0 = s.triggers.trg0 ∧ t.triggers.trg1 = s.triggers.trg1
  mixer : t.mixer = { s.mixer with duckAmount := t.mixer.duckAmount, duckCount := t.mixer.duckCount }
  reports : ∃ k n, 8 ≤ n ∧ n ≤ 32 ∧
    t.reports =
      ((s.endings reason).take k ++ (if s.freeCount < 8 then [ReportKind.streamCredit n] else []) ++
        (s.endings reason).drop k).foldl (fun u kind => u.offer kind s.time.tick) s.reports
  rest : t.time = s.time ∧ t.pitchMap = s.pitchMap ∧ t.link = s.link ∧ t.inReset = s.inReset ∧ t.straps = s.straps ∧
    t.pending = s.pending

/-! ### Taking a request (R161, R186) -/

/-- The request, the NUM and the bytes after the code that a command carries, where it is a request (11.3). -/
def requestOf : Instr → Option (Request × Byte × List Byte)
  | .linkOpen n f => some (.linkOpen, n, f)
  | .status n f => some (.status, n, f)
  | .systemResetAudio n rest => some (.systemReset, n, 0#8 :: rest)
  | .systemResetFull n rest => some (.systemReset, n, 1#8 :: rest)
  | .reportSelect n f => some (.reportSelect, n, f)
  | .reportAck n f => some (.reportAck, n, f)
  | .cuePlay n f => some (.cuePlay, n, f)
  | .cueStop n f => some (.cueStop, n, f)
  | .cueCut n f => some (.cueCut, n, f)
  | .cueAdjust n f => some (.cueAdjust, n, f)
  | .cueQuery n f => some (.cueQuery, n, f)
  | .phraseBegin n f => some (.phraseBegin, n, f)
  | .phraseAdd n f => some (.phraseAdd, n, f)
  | .phraseEnd n f => some (.phraseEnd, n, f)
  | .phraseDrop n f => some (.phraseDrop, n, f)
  | .phraseInfo n f => some (.phraseInfo, n, f)
  | .mapWrite n f => some (.mapWrite, n, f)
  | .mapRead n f => some (.mapRead, n, f)
  | .mapRestore n f => some (.mapRestore, n, f)
  | .outputSet n f => some (.outputSet, n, f)
  | .clockSet n f => some (.clockSet, n, f)
  | .clockBar n f => some (.clockBar, n, f)
  | .clockRead n f => some (.clockRead, n, f)
  | .streamOpen n f => some (.streamOpen, n, f)
  | .streamData n f => some (.streamData, n, f)
  | .streamEnd n f => some (.streamEnd, n, f)
  | .streamAbort n f => some (.streamAbort, n, f)
  | .triggerArm n f => some (.triggerArm, n, f)
  | .triggerDisarm n f => some (.triggerDisarm, n, f)
  | .powerOnReset _ => none
  | .pinReset _ => none
  | .softReset _ => none
  | .frameDiscard => none
  | .frameAbandon => none
  | .replySent => none
  | .reportFrameSent => none
  | .tickAdvance _ => none
  | .dueEvent => none
  | .waitDeadline _ => none
  | .allocationPass => none
  | .handoffComplete _ => none
  | .releaseComplete _ => none
  | .rateCountStep _ => none
  | .stepEnd _ => none
  | .gateRunsOut _ => none
  | .duckStep => none
  | .starveLimit _ => none
  | .internalBeatEdge => none
  | .syncEdge => none
  | .syncLoss => none
  | .silenceTimeout => none
  | .retransmissionTimer => none
  | .firingEvent _ => none
  | .outputSample => none
  | .blockUsedUp => none
  | .noiseShift _ => none
  | .pinResetTaken => none
  | .byteReceived _ => none

/-- An advance has made an abandonment, a stall or a go-back due, and it is not yet taken (R159, R167, R178). -/
def State.overdue (s : State) : Bool :=
  s.link.abandonDue || s.link.silenceDue || s.timerDue

/-- The part with what an advance has made due taken: the abandonment of the frame in hand (R159), the stall at the silence
timeout (R167) and the action of the retransmission timer (R179), since an advance taken first acts first (R167, R170,
R183), the idle transmitter beginning the frame that each makes ready (R164). -/
def State.caughtUp (s : State) : State :=
  s.abandonFrame.linkFirst

/-- A request frame with this NUM and these bytes after the code is taken, and is not answered from the reply cache (R161
steps 1 and 2), at a part that is not held in reset (R172) and has no abandonment, stall or go-back to take first (R159,
R167, R170, R183). -/
structure State.Takes (s : State) (r : Request) (num : Byte) (f : List Byte) : Prop where
  running : s.inReset = false
  prompt : s.overdue = false
  room : s.link.replies.length < Config.pendingReplyLimit
  fresh : s.link.cached num r.code f = none

/-- A taken request that passes the common checks too (R161 step 3, R186). -/
structure State.Passes (s : State) (r : Request) (num : Byte) (f : List Byte) : Prop extends s.Takes r num f where
  checks : r.check s.link.session f = none

/-- The part with the silence count set to 0 by a frame handed over (R161, R167). -/
def State.heard (s : State) : State :=
  { s with link := s.link.heard }

/-- The state after a request is answered and its owner's effect is `t`: the silence count is 0 (R167), the reply joins the
pending replies and is recorded (R162, R163), and the next frame is chosen (R164). -/
def State.answered (t : State) (r : Request) (num : Byte) (f : List Byte) (a : Answer) : State :=
  (State.reply t.heard num r.code f a).chooseFrame

/-! ### The request tables (11.3, 11.6), written out from the columns of the tables -/

/-- The number that a field of this width holds at this offset of the bytes after the code, most significant byte first
(R185). -/
def fieldValue (f : List Byte) (offset width : Nat) : Nat :=
  ((f.drop offset).take width).foldl (fun n b => 256 * n + b.toNat) 0

/-- A row of the layout tables of 11.6: the field index, where the field lies, its checked range, and whether the request has
it tested (R188). -/
structure FieldRow where
  field : Nat
  offset : Nat
  width : Nat
  low : Nat
  high : Nat
  tested : Bool
  deriving DecidableEq, Repr

/-- The field is tested and lies outside its checked range (R188). -/
def FieldRow.fails (f : List Byte) (x : FieldRow) : Bool :=
  x.tested && !(decide (x.low ≤ fieldValue f x.offset x.width ∧ fieldValue f x.offset x.width ≤ x.high))

/-- The rows of CUE.PLAY from an offset on, with indices counted on from `base`; in a template the id of a STREAM source is
not tested (R188, log entry 31). -/
def cueRows (f : List Byte) (o base : Nat) (template : Bool) : List FieldRow :=
  let kind := fieldValue f (o + 2) 1
  let pitched : Bool := kind = 1 ∨ kind = 2
  [⟨base + 1, o, 2, 1, 65535, true⟩,
    ⟨base + 2, o + 2, 1, 0, 3, true⟩,
    ⟨base + 3, o + 3, 1, 0, 31, kind = 0⟩,
    ⟨base + 3, o + 3, 1, 0, 127, pitched⟩,
    ⟨base + 3, o + 3, 1, 1, 255, kind = 3 && !template⟩,
    ⟨base + 4, o + 4, 2, 1, 65535, pitched⟩,
    ⟨base + 5, o + 6, 1, 0, 2, kind = 1⟩,
    ⟨base + 6, o + 7, 1, 0, 7, true⟩,
    ⟨base + 7, o + 8, 1, 0, 15, true⟩,
    ⟨base + 8, o + 9, 1, 0, 15, true⟩,
    ⟨base + 9, o + 10, 1, 0, 2, true⟩,
    ⟨base + 10, o + 11, 4, 0, 65535, fieldValue f (o + 10) 1 = 2⟩,
    ⟨base + 11, o + 15, 1, 0, 2, true⟩]

/-- The rows of a request's table in 11.6, in order of field index; fields that the table marks "any" or "owner" have none.
-/
def fieldRows (r : Request) (f : List Byte) : List FieldRow :=
  let byte (o : Nat) : Nat := fieldValue f o 1
  match r with
  | .linkOpen => [⟨1, 0, 1, 0, 1, true⟩, ⟨2, 1, 2, 100, 60000, fieldValue f 1 2 ≠ 0⟩]
  | .systemReset => [⟨1, 0, 1, 0, 1, true⟩]
  | .cuePlay => cueRows f 0 0 false
  | .cueStop | .cueCut => [⟨1, 0, 1, 0, 2, true⟩, ⟨2, 1, 2, 1, 65535, byte 0 = 0⟩]
  | .cueAdjust =>
    [⟨1, 0, 2, 1, 65535, true⟩, ⟨3, 3, 1, 0, 15, (byte 2).testBit 0⟩, ⟨4, 4, 1, 0, 7, (byte 2).testBit 1⟩]
  | .cueQuery => [⟨1, 0, 2, 1, 65535, true⟩]
  | .phraseBegin => [⟨1, 0, 1, 0, 31, true⟩, ⟨2, 1, 1, 0, 3, true⟩, ⟨5, 4, 1, 0, 1, true⟩]
  | .phraseAdd => [⟨1, 0, 1, 1, 24, true⟩]
  | .phraseDrop | .phraseInfo => [⟨1, 0, 1, 0, 31, true⟩]
  | .mapWrite | .mapRead => [⟨1, 0, 1, 0, 127, true⟩, ⟨2, 1, 1, 1, 16, true⟩]
  | .outputSet =>
    [⟨2, 1, 1, 0, 31, (byte 0).testBit 0⟩, ⟨3, 2, 1, 0, 15, (byte 0).testBit 1⟩, ⟨4, 3, 1, 0, 1, (byte 0).testBit 2⟩,
      ⟨5, 4, 1, 0, 1, (byte 0).testBit 3⟩]
  | .clockSet =>
    [⟨2, 1, 2, 20, 5000, (byte 0).testBit 0⟩, ⟨3, 3, 1, 1, 16, (byte 0).testBit 1⟩,
      ⟨4, 4, 1, 0, 1, (byte 0).testBit 2⟩]
  | .streamOpen => [⟨1, 0, 1, 1, 255, true⟩, ⟨2, 1, 1, 0, 3, true⟩, ⟨3, 2, 1, 1, 32, true⟩, ⟨4, 3, 1, 0, 1, true⟩]
  | .streamData | .streamEnd | .streamAbort => [⟨1, 0, 1, 1, 255, true⟩]
  | .triggerArm =>
    [⟨1, 0, 1, 0, 3, true⟩, ⟨2, 1, 1, 0, 1, true⟩, ⟨3, 2, 1, 0, 2, true⟩, ⟨4, 3, 1, 0, 1, true⟩,
      ⟨5, 4, 1, 0, 1, true⟩] ++ cueRows f 5 5 true
  | .triggerDisarm => [⟨1, 0, 1, 0, 1, true⟩, ⟨2, 1, 1, 0, 3, byte 0 = 0⟩]
  | .status | .reportSelect | .reportAck | .phraseEnd | .mapRestore | .clockBar | .clockRead => []

/-- The body length of a request in the table of 11.3 (R187): a body of `len` bytes whose bytes after the code are
`f` has the length of its code. -/
def lengthFits (r : Request) (f : List Byte) (len : Nat) : Prop :=
  match r with
  | .status | .phraseEnd | .mapRestore | .clockBar | .clockRead => len = 1
  | .systemReset | .reportAck | .phraseDrop | .phraseInfo | .streamEnd | .streamAbort => len = 2
  | .reportSelect | .cueQuery | .mapRead | .triggerDisarm => len = 3
  | .linkOpen | .cueStop | .cueCut => len = 4
  | .streamOpen => len = 5
  | .cueAdjust | .phraseBegin | .outputSet | .clockSet => len = 6
  | .cuePlay => len = 23
  | .triggerArm => len = 28
  | .phraseAdd => len = 2 + 6 * fieldValue f 0 1
  | .mapWrite => len = 3 + 2 * fieldValue f 1 1
  | .streamData => 5 ≤ len ∧ len ≤ 132

/-- The codes of the table of 11.3. -/
def requestCodes : List Nat :=
  [0x01, 0x02, 0x03, 0x08, 0x09, 0x10, 0x11, 0x12, 0x13, 0x14, 0x20, 0x21, 0x22, 0x23, 0x24, 0x30, 0x31, 0x32, 0x33, 0x40,
    0x41, 0x42, 0x50, 0x51, 0x52, 0x53, 0x60, 0x61]

/-- The default period of a note is the nearest whole number to 768 000 / (440 × 2^((n − 69) / 12)), or 65535 where that is
less (R90): `2 p − 1` and `2 p + 1` enclose twice the quotient, compared by their twelfth powers. -/
def nearestPeriod (n : Nat) (p : Nat) : Prop :=
  (2 * p - 1) ^ 12 * 440 ^ 12 * 2 ^ n ≤ (2 * 768000) ^ 12 * 2 ^ 69 ∧
    (p = 65535 ∨ (2 * 768000) ^ 12 * 2 ^ 69 < (2 * p + 1) ^ 12 * 440 ^ 12 * 2 ^ n)

/-- The part after it has taken the bytes in order, one BYTE_RECEIVED each. -/
def feed : List Byte → State → Host.Outcome State Fault Refusal
  | [], s => .next s
  | b :: rest, s =>
    match exec (.byteReceived b) s with
    | .next t => feed rest t
    | .fault x => .fault x
    | .refused x => .refused x

end Sys2Proof.Machine
end

