-- ==== Sys2Proof/Certificates/Slice0/Obligations.lean ====
section
/-! DEFINITION. The statements for the provers: what each command, each shared operation and every step of the part does, by the
numbered rules of spec/. -/

open Sys2Proof Sys2Proof.Machine

/-! ### The queue and the resets -/

/-- A step takes the command at the front of the queue and executes it with the queue's rest waiting. -/
def Obligations.StepTakesFront : Prop :=
  ∀ (s : State) (c : Instr) (rest : List Instr), s.pending = c :: rest → step s = exec c { s with pending := rest }

/-- The state after reset is sound: every block's invariant, the placing of cues and the
bound of the schedule hold in it, and no command waits. -/
def Obligations.ResetIsSound : Prop :=
  State.reset.Sound ∧ State.reset.Placed ∧ State.reset.sched.entries.length ≤ 48 ∧ State.reset.pending = []

/-- After POWER_ON_RESET, PIN_RESET (unconditional: log entry 26), and the SOFT reset at the end of a SYSTEM.RESET FULL
reply, by REPLY_SENT or by SOFT_RESET while the reply leaves TXD (log entry 11: the model's choice), the scheduler, the
voices, the time base, the stream unit, the trigger unit and the report unit hold what R25, R47, R121, R141, R153 and
R184 say, and the session is CLOSED with the cause of the reset (R171). -/
def Obligations.ResetsClearTheBlocks : Prop :=
  ∀ (s : State) (straps : Straps) (c : Instr) (cause : ResetCause),
    (c = .powerOnReset straps ∧ cause = .power) ∨ (c = .pinReset straps ∧ cause = .pin) ∨
        ((c = .softReset straps ∨ c = .replySent) ∧ cause = .soft ∧ s.inReset = false ∧ s.link.sendingFull = true) →
      ∃ t, exec c s = .next t ∧ t.inReset = false ∧ t.pending = s.pending ∧
        (t.sched.entries = [] ∧ t.sched.live = [] ∧ t.sched.counter = 0) ∧
        (∀ v, t.voice v =
          { state := .idle, current := none, releaseMode := none, incoming := none,
            env := { phase := .silent, level := 0, target := 0, rateCount := 0 }, player := none, osc := none }) ∧
        t.alloc.passes = 0 ∧
        (∀ id, (t.phrase id).refs = 0) ∧
        (t.time.tick = 0 ∧ t.time.source = .internal ∧ t.time.sync = .internal ∧ t.time.configuredBeat = 500 ∧
          t.time.effectiveBeat = 500 ∧ t.time.lengthPending = false ∧ t.time.configuredBar = 4 ∧ t.time.barInForce = 4 ∧
          t.time.barRestart = false ∧ t.time.beatInBar = 1 ∧ t.time.barNumber = 0 ∧ t.time.lastBeat = none ∧
          t.time.interval = 0 ∧ t.time.lossReference = none ∧ t.time.previousSync = none ∧
          t.time.syncLine = { level := true, last := true }) ∧
        ((∀ i, t.stream i = none) ∧ t.streams.freeBlocks.Perm allBlocks ∧ t.freeCount = 32 ∧
          ∀ b : BlockId, t.streams.blocks[b] = none) ∧
        ((∀ i : TriggerId, t.triggers.slots[i] = none) ∧ t.triggers.trg0.qualifier = { level := true, last := true } ∧
          t.triggers.trg1.qualifier = { level := true, last := true }) ∧
        (t.reports.queue = [] ∧ t.reports.nextSequence = 0 ∧ t.reports.retry = 0 ∧ t.attn = false ∧
          ∀ k, k < 13 → t.reports.mask.getLsbD k = decide (k ≠ 3)) ∧
        (t.link.session = .closed ∧ t.link.receiver = { held := [], gap := 0 } ∧ t.link.transmitter = .idle ∧
          t.link.replies = [] ∧ t.link.cache = [] ∧ t.link.discards = 0 ∧ t.link.overruns = 0 ∧
          t.link.orphan = .continue ∧ t.link.silenceTimeout = 0 ∧ t.link.silenceCount = 0 ∧ t.link.resetCause = cause ∧
          t.link.firstOpen = true)

/-- The phrase store, the pitch map, the mixer and the serial rate after each reset (R67, R68, R93, R103, R104, R171):
power-on; PIN_RESET; and the SOFT reset, whose moment is the model's (log entry 11). SOFT_RESET performs it while the
FULL reply leaves TXD; REPLY_SENT performs it with the straps of the latest reset, and a SOFT_RESET that follows gives
the levels its sampling finds, and without such a reset changes nothing. -/
def Obligations.ResetsKeepReadyPhrases : Prop :=
  let strapped (straps : Straps) (t : State) : Prop :=
    (t.mixer.masterVolume = 24 ∧ t.mixer.masterFactor = 0 ∧ t.mixer.duckDepth = 6 ∧ t.mixer.duckAmount = 0 ∧
      t.mixer.duckCount = 0 ∧ t.mixer.softMute = false ∧ t.mixer.muten = true ∧ t.mixer.value = 0 ∧
      t.mixer.outputMode = if straps.omode then .single else .bridge) ∧
    t.link.serialRate =
      (match straps.baud1, straps.baud0 with
        | false, false => .r57600
        | false, true => .r115200
        | true, false => .r230400
        | true, true => .r460800)
  (∀ (s : State) (straps : Straps), ∃ t, exec (.powerOnReset straps) s = .next t ∧
    (∀ id, t.phrase id = { state := .empty, header := none, stepCount := 0, pages := [], refs := 0 }) ∧
    t.store.freePages = List.finRange 64 ∧ t.store.build = none ∧ t.pitchMap = defaultPitchMap ∧ strapped straps t) ∧
  (∀ (s : State) (straps : Straps) (c : Instr),
    c = .pinReset straps ∨ (c = .softReset straps ∧ s.inReset = false ∧ s.link.sendingFull = true) ∨
        (c = .replySent ∧ straps = s.straps ∧ s.inReset = false ∧ s.link.sendingFull = true) →
      ∃ t, exec c s = .next t ∧
        (∀ id, (s.phrase id).state = .ready →
          t.phrase id = { s.phrase id with refs := 0 } ∧ ∀ i, t.store.stepAt (t.phrase id) i = s.store.stepAt (s.phrase id) i) ∧
        (∀ id, (s.phrase id).state ≠ .ready →
          t.phrase id = { state := .empty, header := none, stepCount := 0, pages := [], refs := 0 }) ∧
        t.store.freePages =
          (List.finRange 64).filter (fun g =>
            decide (∀ id, (s.phrase id).state = .ready → g ∉ (s.phrase id).pages)) ∧
        t.store.build = none ∧ t.pitchMap = s.pitchMap ∧ strapped straps t ∧
        t.link.strapsDue = decide (c = .replySent)) ∧
  ∀ (s : State) (straps : Straps), s.inReset = false → s.link.sendingFull = false →
    (s.link.strapsDue = false → exec (.softReset straps) s = .next s.chooseFrame) ∧
    (s.link.strapsDue = true →
      let mode : OutputMode := if straps.omode then .single else .bridge
      ∃ rate,
        (rate =
          match straps.baud1, straps.baud0 with
          | false, false => .r57600
          | false, true => .r115200
          | true, false => .r230400
          | true, true => .r460800) ∧
        exec (.softReset straps) s =
          .next
            (State.chooseFrame
              { s with
                straps := straps
                mixer := { s.mixer with outputMode := mode, pwm := pwmOf mode s.mixer.value }
                link := { s.link with serialRate := rate, strapsDue := false } }))

/-- PIN_RESET_TAKEN: TXD high, RXD ignored, AOUTP and AOUTN low, ATTN low (R103, R171, R172, R182); from then on no
command but a reset moves the part (log entry 10: the model's choice). -/
def Obligations.PinResetHoldsThePart : Prop :=
  (∀ s : State, exec .pinResetTaken s =
    .next
      { s with
        inReset := true
        mixer := { s.mixer with pwm := { pHigh := 0, nHigh := 0 } }
        reports := { s.reports with queue := [] }
        link := { s.link with transmitter := .idle, receiver := { held := [], gap := 0 } } }) ∧
  ∀ (s : State) (c : Instr), s.inReset = true → (∀ straps, c ≠ .powerOnReset straps) → (∀ straps, c ≠ .pinReset straps) →
    c ≠ .pinResetTaken → exec c s = .next s

/-! ### Frames, the receiver and the taking of requests -/

/-- The check register, run on over a frame's two check bytes, high byte first, ends at 0 exactly when they are the
check. -/
def Obligations.CheckEndsAtZero : Prop :=
  crc [0x31, 0x32, 0x33, 0x34, 0x35, 0x36, 0x37, 0x38, 0x39] = 0x29B1#16 ∧
    ∀ (bytes : List Byte) (hi lo : Byte), crc (bytes ++ [hi, lo]) = 0 ↔ hi ++ lo = crc bytes

/-- A request frame sent byte by byte to a hunting receiver is handed over with its NUM and its body, whatever bytes it
holds; the receiver is then hunting with nothing held, and the transmitter chooses its next frame. -/
def Obligations.FrameIsReceived : Prop :=
  ∀ (s : State) (num : Byte) (body : List Byte), s.inReset = false → s.link.receiver.held = [] → s.chooseFrame = s →
    body.length ≤ 200 →
      feed (frame typeRequest num body) s =
        .next
          (State.chooseFrame
            (State.hold
              (State.takeFrame
                { s with
                  link := { s.link with receiver := { held := (frame typeRequest num body).dropLast, gap := 0 } } }
                num body)
              []))

/-- BYTE_RECEIVED in every state of the receiver (R157 to R160). Hunting, 0xC3 begins a frame and any other byte is
dropped. Where an advance has brought the gap count to 21, the frame in hand is abandoned first (R170) and the byte is
then examined by a hunting receiver. Otherwise the byte is held: it joins the frame; or a LEN above 200, a TYPE other
than 0x01 or a bad check discards it, the bytes behind its start byte being examined again; or the last check byte is
good and the request is handed over, as its row of the table hands it over. -/
def Obligations.ByteReceivedHolds : Prop :=
  (∀ (s : State) (b : Byte), s.inReset = false →
    (∃ t, exec (.byteReceived b) s = .next t) ∧
    let held := s.link.receiver.held
    let counted (n : Nat) : Nat := min (n + 1) 65535
    let receives (bytes : List Byte) (discards : Nat) : Prop :=
      exec (.byteReceived b) s =
        .next
          (State.chooseFrame
            { s with link := { s.link with receiver := { held := bytes, gap := 0 }, discards := discards } })
    (held = [] → b ≠ 0xC3 → exec (.byteReceived b) s = .next s.chooseFrame) ∧
    (held = [] → b = 0xC3 → receives [0xC3] s.link.discards) ∧
    (held ≠ [] → 21 ≤ s.link.receiver.gap →
      ∃ t, exec .frameAbandon s = .next t ∧ t.link.receiver.held = [] ∧
        exec (.byteReceived b) s =
          .next (if b = 0xC3 then { t with link := { t.link with receiver := { held := [0xC3], gap := 0 } } } else t)) ∧
    (held ≠ [] → s.link.receiver.gap < 21 →
      (∀ start, held = [start] →
        (b.toNat ≤ 200 → receives [start, b] s.link.discards) ∧
        (200 < b.toNat → receives [] (counted s.link.discards))) ∧
      (∀ start len, held = [start, len] →
        (b = 0x01 → receives [start, len, b] s.link.discards) ∧
        (b ≠ 0x01 → len ≠ 0xC3 → b ≠ 0xC3 → receives [] (counted s.link.discards)) ∧
        (b = 0xC3 → len ≠ 0xC3 → receives [0xC3] (counted s.link.discards)) ∧
        (b ≠ 0x01 → len = 0xC3 → b.toNat ≤ 200 → receives [0xC3, b] (counted s.link.discards)) ∧
        (len = 0xC3 → 200 < b.toNat → receives [] (counted (counted s.link.discards)))) ∧
      (∀ start len rest, held = start :: len :: rest → rest ≠ [] → rest.length ≠ len.toNat + 3 →
        receives (held ++ [b]) s.link.discards) ∧
      ∀ start len type num body hi, held = start :: len :: type :: num :: (body ++ [hi]) → body.length = len.toNat →
        (crc (len :: type :: num :: body) = hi ++ b →
          exec (.byteReceived b) s =
            .next
              (State.chooseFrame
                (State.hold
                  (State.takeFrame { s with link := { s.link with receiver := { held := held, gap := 0 } } } num body)
                  []))) ∧
        (crc (len :: type :: num :: body) ≠ hi ++ b →
          (0xC3 ∉ held.tail ++ [b] → receives [] (counted s.link.discards)) ∧
          ∃ t,
            exec .frameDiscard { s with link := { s.link with receiver := { held := held ++ [b], gap := 0 } } } = .next t ∧
              exec (.byteReceived b) s = .next t))) ∧
  ∀ (s : State) (c : Instr) (r : Request) (num : Byte) (f : List Byte), requestOf c = some (r, num, f) →
    s.inReset = false → s.link.abandonDue = false → exec c s = .next (s.takeFrame num (r.code :: f)).chooseFrame

/-- FRAME_DISCARD with a frame in hand, and FRAME_ABANDON at a gap count of 21 (R158, R159): the discard count is
raised, stopping at 65535. With no start byte behind the first, the receiver hunts; behind one, the frame it begins
goes on assembling after a discard, and is abandoned and counted too at an abandonment. A FRAME_DISCARD at a gap count
of 21 meets the abandonment taken first (R170). While the receiver hunts, with nothing held, a FRAME_DISCARD is ignored
and counts nothing (R159). -/
def Obligations.FramesAreDiscarded : Prop :=
  (∀ s : State, s.inReset = false → s.link.receiver.held = [] → exec .frameDiscard s = .next s.chooseFrame) ∧
  (∀ (s : State) (b : Byte) (rest : List Byte) (c : Instr), s.inReset = false → s.link.receiver.held = b :: rest →
    0xC3 ∉ rest → (c = .frameDiscard ∨ (c = .frameAbandon ∧ 21 ≤ s.link.receiver.gap)) →
      exec c s =
        .next
          (State.chooseFrame
            { s with
              link :=
                { s.link with
                  receiver := { s.link.receiver with held := [] }, discards := min (s.link.discards + 1) 65535 } })) ∧
  ∀ (s : State) (b : Byte) (rest : List Byte), s.inReset = false → 0xC3 ∉ rest → rest.length ≤ 1 →
    (∀ len, rest = [len] → len.toNat ≤ 200) → s.link.receiver.held = b :: 0xC3 :: rest →
      (s.link.receiver.gap < 21 →
        exec .frameDiscard s =
          .next
            (State.chooseFrame
              { s with
                link :=
                  { s.link with
                    receiver := { s.link.receiver with held := 0xC3 :: rest }
                    discards := min (s.link.discards + 1) 65535 } })) ∧
        ∀ c : Instr, c = .frameAbandon ∨ c = .frameDiscard → 21 ≤ s.link.receiver.gap →
          exec c s =
            .next
              (State.chooseFrame
                { s with
                  link :=
                    { s.link with
                      receiver := { s.link.receiver with held := [] }
                      discards := min (min (s.link.discards + 1) 65535 + 1) 65535 } })

/-- The common request checks in their order (R165, R186 to R189). UNKNOWN_REQUEST for a body that is empty (its code is
echoed as 0, and the reply cache has it under the code 0: log entry 32) or whose code is not in 11.3, with the code
echoed; then, for every request row, BAD_LENGTH where the length is not that of 11.3, BAD_PARAM with the index of the
first field outside its checked range of 11.6 (log entry 31 for a template), NOT_OPEN or STALLED by the session. A
refused request changes nothing but the link. -/
def Obligations.CommonChecksRefuse : Prop :=
  (∀ (s : State) (num : Byte) (body : List Byte),
    let code := body.headD 0
    let reply : List Byte := [code, 0x01]
    let others := s.link.cache.filter fun e => decide (e.tag ≠ num)
    let kept := if 8 ≤ s.link.cache.length ∧ (∀ e ∈ s.link.cache, e.tag ≠ num) then others.drop 1 else others
    (body = [] ∨ code.toNat ∉ requestCodes) → s.link.silenceDue = false → s.timerDue = false →
    s.link.replies.length < 2 →
    (num = 0 ∨ ∀ e ∈ s.link.cache, e.tag ≠ num ∨ e.code ≠ code ∨ e.scope ≠ none) →
      s.takeFrame num body =
        { s with
          link :=
            { s.link with
              silenceCount := 0
              replies := s.link.replies ++ [{ num := num, body := reply, full := false }]
              cache :=
                if num = 0 then s.link.cache
                else kept ++ [{ tag := num, code := code, scope := none, body := reply }] } }) ∧
  (∀ (r : Request) (f : List Byte),
    (r.lengthOk f = true ↔ lengthFits r f (f.length + 1)) ∧
      (r.lengthOk f = true →
        firstBad (r.tests f) = ((fieldRows r f).find? fun x => x.fails f).map FieldRow.field)) ∧
  ∀ (s : State) (c : Instr) (r : Request) (num : Byte) (f : List Byte), requestOf c = some (r, num, f) → s.Takes r num f →
    (r.lengthOk f = false → exec c s = .next (s.answered r num f (refuse .badLength))) ∧
    (∀ i, r.lengthOk f = true → firstBad (r.tests f) = some i →
      exec c s = .next (s.answered r num f { status := .badParam, results := [byteOf i, 0xFF] })) ∧
    (r.lengthOk f = true → firstBad (r.tests f) = none → r ≠ .linkOpen → r ≠ .status →
      (s.link.session = .closed → exec c s = .next (s.answered r num f (refuse .notOpen))) ∧
      (s.link.session = .stalled → exec c s = .next (s.answered r num f (refuse .stalled))))

/-- A valid request at 2 pending replies is discarded and counted as an overrun; below that, one that the reply cache
answers is not executed and its recorded reply is sent again. Either sets the silence count to 0 (R161). Where an
advance has brought the gap count to 21 or the silence count to its timeout, or has reached the retransmission timer,
the frame in hand is abandoned, the session stalled, the reports sent back first, and the request is taken in the state
that leaves (R159, R167, R170, R183). Reports sent back on an idle TXD are begun before the reply (R164). The order is
that of the commands (log entry 3). -/
def Obligations.OverrunAndCacheAnswer : Prop :=
  ∀ (s : State) (c : Instr) (r : Request) (num : Byte) (f : List Byte), requestOf c = some (r, num, f) → s.inReset = false →
    (s.overdue = true → s.reports.Ok →
      exec c s = exec c s.caughtUp ∧ s.caughtUp.overdue = false ∧ s.caughtUp.inReset = false ∧
        (s.link.abandonDue = false →
          (s.link.silenceDue = true ∨ (s.timerDue = true ∧ s.reports.retry = 3) →
            s.caughtUp.link.session = .stalled) ∧
          (s.link.silenceDue = false → s.timerDue = true → s.reports.retry < 3 → s.link.transmitter = .idle →
            s.link.replies = [] → ∃ bytes, s.caughtUp.link.transmitter = .report bytes))) ∧
    (s.overdue = false → 2 ≤ s.link.replies.length →
      exec c s =
        .next
          (State.chooseFrame
            { s with
              link := { s.link with silenceCount := 0, overruns := min (s.link.overruns + 1) 65535 } })) ∧
    ∀ e : CacheEntry, s.overdue = false → s.link.replies.length < 2 → (s.link.cache.map CacheEntry.tag).Nodup → num ≠ 0 → r ≠ .linkOpen →
      e ∈ s.link.cache → e.tag = num → e.code = r.code → (e.scope = if r = .systemReset then f.head? else none) →
        exec c s =
          .next
            (State.chooseFrame
              { s with
                link :=
                  { s.link with
                    silenceCount := 0
                    replies := s.link.replies ++ [{ num := num, body := e.body, full := false }] } })

/-- An answered request: its reply, the code, the status and the results, joins the pending replies; it is recorded as R162
says, a malformed SYSTEM.RESET under the scope its first byte gives (log entry 18: the model's choice); the silence count is
0; an idle transmitter with no reply before it begins the reply's frame; no other block is touched (R162 to R164, R189). -/
def Obligations.AnswerIsSentAndRecorded : Prop :=
  ∀ (s : State) (r : Request) (num : Byte) (f : List Byte) (a : Answer),
    let t := s.answered r num f a
    let body := r.code :: a.status.code :: a.results
    let recorded := num ≠ 0 ∧ r ≠ .linkOpen ∧ ¬(r = .systemReset ∧ f.head? = some 1)
    let entry : CacheEntry :=
      { tag := num, code := r.code, scope := if r = .systemReset then f.head? else none, body := body }
    t.link.silenceCount = 0 ∧
    t.link.replies =
      s.link.replies ++
        [{ num := num, body := body, full := decide (r = .systemReset ∧ f.head? = some 1 ∧ a.status = .ok) }] ∧
    (¬recorded → t.link.cache = s.link.cache) ∧
    (recorded → (∃ e ∈ s.link.cache, e.tag = num) →
      t.link.cache = s.link.cache.filter (fun e => decide (e.tag ≠ num)) ++ [entry]) ∧
    (recorded → (∀ e ∈ s.link.cache, e.tag ≠ num) → s.link.cache.length < 8 → t.link.cache = s.link.cache ++ [entry]) ∧
    (recorded → (∀ e ∈ s.link.cache, e.tag ≠ num) → s.link.cache.length = 8 →
      t.link.cache = s.link.cache.drop 1 ++ [entry]) ∧
    (s.inReset = false → s.link.transmitter = .idle → s.link.replies = [] →
      t.link.transmitter = .reply (frame 0x02 num body)) ∧
    (s.link.transmitter ≠ .idle → t.link.transmitter = s.link.transmitter) ∧
    t.reports = s.reports ∧ t.sched = s.sched ∧ t.alloc = s.alloc ∧ t.store = s.store ∧ t.pitchMap = s.pitchMap ∧
    t.mixer = s.mixer ∧ t.time = s.time ∧ t.streams = s.streams ∧ t.triggers = s.triggers ∧ t.pending = s.pending

/-! ### The session, the resets of the host, the reports -/

/-- LINK.OPEN (R166, R181): the cache is emptied, the counts cleared, the policy and the timeout set, the session OPEN;
the report queue is renumbered from 0 and unsent; the reply carries the identity of the part, the reset cause, first
open and the tick. -/
def Obligations.LinkOpenOpensTheSession : Prop :=
  ∀ (s : State) (num : Byte) (f : List Byte), s.Passes .linkOpen num f →
    exec (.linkOpen num f) s =
      .next
        (State.answered
          { s with
            reports :=
              { s.reports with
                queue :=
                  s.reports.queue.mapIdx fun k r =>
                    { r with sequence := byteOf k, sent := false, frameDue := true, lastSent := none, onLine := false }
                nextSequence := byteOf s.reports.queue.length
                retry := 0 }
            link :=
              { s.link with
                cache := [], discards := 0, overruns := 0
                orphan := if u8 f 0 = 1 then .silence else .continue
                silenceTimeout := (u16 f 1).toNat, silenceCount := 0, session := .opened, firstOpen := false } }
          .linkOpen num f
          (answerOk
            (([0x02, 0x62, 1, 48, 32, 64, 7, 2, 32, 4, 32, 8,
                (match s.link.resetCause with
                  | .power => 0
                  | .pin => 1
                  | .soft => 2),
                if s.link.firstOpen then 1 else 0] : List Byte) ++
              be32 s.time.tick)))

/-- SYSTEM.RESET (R169): AUDIO quiets the part with reason RESET, each CUE_ENDED offered in the order of R26 and R48 with
its reason, and is answered OK; FULL is answered OK at once and changes nothing else. -/
def Obligations.SystemResetQuiets : Prop :=
  (∀ (s : State) (num : Byte) (rest : List Byte), s.Passes .systemReset num (0 :: rest) → s.Sound → s.Placed →
    ∃ t, s.heard.Quieted .reset t ∧
      exec (.systemResetAudio num rest) s =
        .next (State.answered t .systemReset num (0 :: rest) { status := .ok, results := [] })) ∧
  ∀ (s : State) (num : Byte) (rest : List Byte), s.Passes .systemReset num (1 :: rest) →
    exec (.systemResetFull num rest) s =
      .next (State.answered s .systemReset num (1 :: rest) { status := .ok, results := [] })

/-- REPORT.SELECT (R175): the 12 named flags take the mask's bits, that of REPORTS_LOST stays set; the reply gives the
mask before and after. REPORT.ACK (R180): an in-flight sequence retires the reports up to it and sets the retry
count to 0; one retired before changes nothing; any other is BAD_PARAM. -/
def Obligations.ReportsAreSelectedAndAcked : Prop :=
  (∀ (s : State) (num : Byte) (f : List Byte), s.Passes .reportSelect num f →
    ∃ mask : Half,
      (∀ k, mask.getLsbD k = if k < 12 then (u16 f 0).getLsbD k else decide (k = 12)) ∧
      exec (.reportSelect num f) s =
        .next
          (State.answered { s with reports := { s.reports with mask := mask } } .reportSelect num f
            (answerOk (be16 s.reports.mask ++ be16 mask)))) ∧
  ∀ (s : State) (num : Byte) (f : List Byte), s.Passes .reportAck num f → s.reports.Ok →
    (∀ (k : Nat) (h : k < s.reports.queue.length), s.reports.queue[k].sent = true → s.reports.queue[k].sequence = u8 f 0 →
      exec (.reportAck num f) s =
        .next
          (State.answered { s with reports := { s.reports with queue := s.reports.queue.drop (k + 1), retry := 0 } }
            .reportAck num f
            (answerOk [byteOf (k + 1), byteOf (s.reports.queue.length - (k + 1)), s.reports.nextSequence]))) ∧
    ((∀ r ∈ s.reports.queue, r.sent = true → r.sequence ≠ u8 f 0) →
      let behind :=
        ((match s.reports.queue with
            | r :: _ => r.sequence
            | [] => s.reports.nextSequence) -
          u8 f 0).toNat
      exec (.reportAck num f) s =
        .next
          (State.answered s .reportAck num f
            (if 1 ≤ behind ∧ behind ≤ 128 then
              answerOk [0, byteOf s.reports.queue.length, s.reports.nextSequence]
            else { status := .badParam, results := [1, 0xFF] })))

/-- Offers (R174, R176): a kind whose flag is clear is not created; below 31 reports it is appended; above, it is
counted in the newest REPORTS_LOST that is unsent, or begins one. The report carries the tick of its event. -/
def Obligations.OffersAreAdmitted : Prop :=
  (∀ (s : State) (kind : ReportKind), s.offer kind = { s with reports := s.reports.offer kind s.time.tick }) ∧
  ∀ (u : ReportUnit) (kind : ReportKind) (tick : Tick),
    let fresh (k : ReportKind) : Report :=
      { sequence := u.nextSequence, kind := k, tick := tick, sent := false, frameDue := true, lastSent := none,
        onLine := false }
    let subscribed := u.mask.getLsbD (kind.code - 1) = true
    (¬subscribed → u.offer kind tick = u) ∧
    (subscribed → u.queue.length < 31 →
      u.offer kind tick = { u with queue := u.queue ++ [fresh kind], nextSequence := u.nextSequence + 1 }) ∧
    (∀ (front : List Report) (r : Report) (n : Nat), subscribed → 31 ≤ u.queue.length → u.queue = front ++ [r] →
      r.kind = .reportsLost n → r.sent = false →
        u.offer kind tick = { u with queue := front ++ [{ r with kind := .reportsLost (min (n + 1) 65535) }] }) ∧
    ∀ (front : List Report) (r : Report), subscribed → u.queue.length = 31 → u.queue = front ++ [r] →
      ((∀ n, r.kind ≠ .reportsLost n) ∨ r.sent = true) →
        u.offer kind tick =
          { u with queue := u.queue ++ [fresh (.reportsLost 1)], nextSequence := u.nextSequence + 1 }

/-- The bodies of the thirteen report kinds (R190): kind code, event tick, fields. -/
def Obligations.ReportBodiesAreLaidOut : Prop :=
  ∀ r : Report,
    r.body =
      (match r.kind with
        | .cueStarted tag v => 1 :: be32 r.tick ++ be16 tag ++ [byteOf v.val]
        | .cueEnded tag reason v =>
          2 :: be32 r.tick ++ be16 tag ++
            [(match reason with
                | .finished => 0
                | .stopped => 1
                | .cut => 2
                | .stolen => 3
                | .choked => 4
                | .late => 5
                | .noVoice => 6
                | .underrun => 7
                | .aborted => 8
                | .retriggered => 9
                | .linkLost => 10
                | .reset => 11),
              match v with
              | some w => byteOf w.val
              | none => 0xFF]
        | .mark tag value => 3 :: be32 r.tick ++ be16 tag ++ [value]
        | .beat b n => 4 :: be32 r.tick ++ byteOf b :: be16 n
        | .syncLost t => 5 :: be32 r.tick ++ be32 t
        | .syncRegained => 6 :: be32 r.tick
        | .streamCredit n => 7 :: be32 r.tick ++ [byteOf n]
        | .streamStarved id => 8 :: be32 r.tick ++ [id]
        | .streamResumed id => 9 :: be32 r.tick ++ [id]
        | .triggerFired slot tag => 10 :: be32 r.tick ++ byteOf slot.val :: be16 tag
        | .triggerRefused slot tag reason =>
          11 :: be32 r.tick ++ byteOf slot.val :: be16 tag ++
            [match reason with
              | .busy => 0
              | .notReady => 1
              | .scheduleFull => 2]
        | .phraseFault tag id step reason =>
          12 :: be32 r.tick ++ be16 tag ++
            [byteOf id.val, byteOf step,
              match reason with
              | .absent => 0
              | .nested => 1]
        | .reportsLost n => 13 :: be32 r.tick ++ be16 (halfOf n))

/-- An idle transmitter begins the oldest pending reply, and with none, in OPEN, the oldest report whose frame is due
among the first four (R164, R177); a busy one begins nothing, and no report is begun once the silence count has reached
its timeout or the head's last sent tick lies 250 ticks behind (R167, R178). -/
def Obligations.NextFrameIsChosen : Prop :=
  ∀ s : State,
    let silent : Prop := s.link.silenceTimeout ≠ 0 ∧ s.link.silenceTimeout ≤ s.link.silenceCount
    let expired : Prop :=
      ∃ r rest t, s.reports.queue = r :: rest ∧ r.frameDue = false ∧ r.onLine = false ∧ r.lastSent = some t ∧
        250 ≤ (s.time.tick - t).toNat
    (s.link.transmitter ≠ .idle → s.chooseFrame = s) ∧
    (s.link.transmitter = .idle → s.inReset = false →
      (∀ p rest, s.link.replies = p :: rest →
        s.chooseFrame = { s with link := { s.link with transmitter := .reply (frame 0x02 p.num p.body) } }) ∧
      (s.link.replies = [] → s.link.session ≠ .opened ∨ silent ∨ expired → s.chooseFrame = s) ∧
      (s.link.replies = [] → s.link.session = .opened → ¬silent → ¬expired →
        ((∀ k, k < 4 → ∀ r, s.reports.queue[k]? = some r → r.frameDue = false) → s.chooseFrame = s) ∧
        ∀ (k : Nat) (r : Report), k < 4 → s.reports.queue[k]? = some r → r.frameDue = true →
          (∀ j, j < k → ∀ q, s.reports.queue[j]? = some q → q.frameDue = false) →
            s.chooseFrame =
              { s with
                reports :=
                  { s.reports with
                    queue := s.reports.queue.set k { r with frameDue := false, sent := true, onLine := true } }
                link := { s.link with transmitter := .report (frame 0x03 r.sequence r.body) } }))

/-- REPLY_SENT and REPORT_FRAME_SENT (R163, R169, R178): the reply stops being pending, and with that of a SYSTEM.RESET FULL
the part performs the SOFT reset, the levels of its strap sampling still to come (log entry 11); the report whose frame
ended takes the tick as its last sent tick, where it is still queued as it was sent. -/
def Obligations.FramesEnd : Prop :=
  ∀ (s : State) (bytes : List Byte), s.inReset = false →
    (∀ p rest, s.link.transmitter = .reply bytes → s.link.replies = p :: rest →
      (p.full = false →
        exec .replySent s =
          .next (State.chooseFrame { s with link := { s.link with transmitter := .idle, replies := rest } })) ∧
      (p.full = true →
        ∃ t, exec (.softReset s.straps) s = .next t ∧
          exec .replySent s = .next { t with link := { t.link with strapsDue := true } })) ∧
    (s.link.transmitter = .report bytes →
      exec .reportFrameSent s =
        .next
          (State.chooseFrame
            { s with
              reports :=
                { s.reports with
                  queue :=
                    s.reports.queue.map fun r =>
                      if r.onLine then { r with lastSent := some s.time.tick, onLine := false } else r }
              link := { s.link with transmitter := .idle } }))

/-- RETRANSMISSION_TIMER and SILENCE_TIMEOUT (R167, R168, R178, R179). The head's last sent tick 250 or more ticks ago,
every in-flight report is due again at a retry count below 3. At 3, and at the silence timeout, the session stalls:
under CONTINUE only the session state changes; under SILENCE the part is quieted too, each CUE_ENDED offered in the
order of R168 with reason LINK_LOST or the reason the cue holds. -/
def Obligations.TimersGoBackAndStall : Prop :=
  (∀ (s : State) (r : Report) (rest : List Report) (t : Tick), s.inReset = false → s.link.session = .opened →
    s.reports.queue = r :: rest → r.lastSent = some t → r.frameDue = false → r.onLine = false →
    250 ≤ (s.time.tick - t).toNat → s.reports.retry < 3 →
      exec .retransmissionTimer s =
        .next
          (State.chooseFrame
            { s with
              reports :=
                { s.reports with
                  queue :=
                    s.reports.queue.map fun q => if q.sent then { q with frameDue := true, lastSent := none } else q
                  retry := s.reports.retry + 1 } })) ∧
  ∀ (s : State) (c : Instr), s.inReset = false → s.link.session = .opened →
    (c = .silenceTimeout ∧ s.link.silenceTimeout ≠ 0 ∧ s.link.silenceTimeout ≤ s.link.silenceCount) ∨
        (c = .retransmissionTimer ∧ s.reports.retry = 3 ∧
          ∃ r rest t, s.reports.queue = r :: rest ∧ r.lastSent = some t ∧ r.frameDue = false ∧ r.onLine = false ∧
            250 ≤ (s.time.tick - t).toNat) →
      (s.link.orphan = .continue →
        exec c s = .next (State.chooseFrame { s with link := { s.link with session := .stalled } })) ∧
      (s.link.orphan = .silence → s.Sound → s.Placed →
        ∃ t, State.Quieted { s with link := { s.link with session := .stalled } } .linkLost t ∧ exec c s = .next t.chooseFrame)

/-! ### Cues -/

/-- The cue record of a CUE.PLAY (R1, R2, R7, 11.6): the fields at their places in the body, stored as the source
allows, with the next acceptance number and the due tick; a template is read from the same layout. -/
def Obligations.CueRecordIsBuilt : Prop :=
  ∀ (s : State) (f : List Byte),
    let t := readTemplate f 0
    let pitched : Bool := u8 f 2 = 1 ∨ u8 f 2 = 2
    let start : Start :=
      if u8 f 10 = 0 then .now
      else if u8 f 10 = 1 then .atTick (u8 f 11 ++ u8 f 12 ++ (u8 f 13 ++ u8 f 14))
      else .after (u8 f 11 ++ u8 f 12 ++ (u8 f 13 ++ u8 f 14)).toNat
    let now := s.time.tick
    t.source =
        (if u8 f 2 = 0 then .phrase (Fin.ofNat 32 (u8 f 3).toNat)
        else if u8 f 2 = 1 then
          .tone (Fin.ofNat 128 (u8 f 3).toNat) (u8 f 4 ++ u8 f 5).toNat
            (if u8 f 6 = 0 then .square else if u8 f 6 = 1 then .pulse25 else if u8 f 6 = 2 then .pulse12 else .noise)
        else if u8 f 2 = 2 then .noise (Fin.ofNat 128 (u8 f 3).toNat) (u8 f 4 ++ u8 f 5).toNat
        else .stream (u8 f 3)) ∧
      t.duck = (u8 f 19).getLsbD 1 ∧ t.repeats = (u8 f 18).toNat ∧
      t.rates =
        (if (u8 f 19).getLsbD 2 then some { attack := (u8 f 20).toNat, release := (u8 f 21).toNat } else none) ∧
      s.newCue t =
        { tag := u8 f 0 ++ u8 f 1
          source := t.source
          priority := (u8 f 7).toNat
          group := (u8 f 8).toNat
          volume := (u8 f 9).toNat
          start := start
          quantize := if u8 f 15 = 0 then .off else if u8 f 15 = 1 then .beat else .bar
          window := (u8 f 16 ++ u8 f 17).toNat
          repeats := if pitched then 1 else t.repeats
          exclusive := (u8 f 19).getLsbD 0
          duck := decide (u8 f 2 ≠ 0 ∧ u8 f 2 ≠ 1 ∧ u8 f 2 ≠ 2) && t.duck
          rates := if pitched then some (t.rates.getD { attack := 0, release := 4 }) else none
          acceptance := s.sched.counter
          due :=
            (match start with
              | .now => now
              | .after d => now + BitVec.ofNat 32 d
              | .atTick x => if (now - x).toNat < 2 ^ 31 then now else x)
          deadline := none
          endReason := none }

/-- A new cue goes immediately before the first SCHEDULED entry whose due tick is later than its own, or to the end
(R6). So the entries stay in ascending order of due tick (R5), while all of them lie on one side of a tick and no due
tick that is reached is later than the new one (the second note of R6). -/
def Obligations.CuesAreInsertedInOrder : Prop :=
  ∀ (new : Entry) (l : List Entry),
    let later (e : Entry) : Prop :=
      e.state = .scheduled ∧ e.cue.due - new.cue.due ≠ 0 ∧ (e.cue.due - new.cue.due).toNat < 2 ^ 31
    (∀ l1 e l2, l = l1 ++ e :: l2 → later e → (∀ x ∈ l1, ¬later x) → insertEntry new l = l1 ++ new :: e :: l2) ∧
      ((∀ x ∈ l, ¬later x) → insertEntry new l = l ++ [new]) ∧
      ∀ a : Tick,
        let distance (e : Entry) : Nat := (e.cue.due - a).toNat
        (∀ e ∈ new :: l, distance e < 2 ^ 31) → (∀ e ∈ l, e.state ≠ .scheduled → distance e ≤ distance new) →
          l.Pairwise (fun x y => distance x ≤ distance y) → (insertEntry new l).Pairwise fun x y => distance x ≤ distance y

/-- CUE.PLAY where every condition of R16 holds (R17): the record enters the schedule, its tag the live set, the counter
moves on, its phrase is referred to or its stream bound, and the reply gives both numbers. Where its due tick is
reached, its due event follows at once: it becomes WAITING, with a pass asked, or ALIGNING (R8). -/
def Obligations.CuePlayIsAccepted : Prop :=
  ∀ (s : State) (num : Byte) (f : List Byte), s.Passes .cuePlay num f →
    let t := readTemplate f 0
    let c := s.newCue t
    let entries := insertEntry { cue := c, state := .scheduled } s.sched.entries
    let becomesDue (e : Entry) : Bool :=
      e.state == .scheduled && e.cue.acceptance == s.sched.counter && decide ((s.time.tick - e.cue.due).toNat < 2 ^ 31)
    let deadline (x : Cue) : Option Tick :=
      if x.window = 0 ∨ x.window = 65535 then none else some (s.time.tick + BitVec.ofNat 32 x.window)
    t.tag ∉ s.sched.live → s.sched.entries.length < 48 →
    (∀ id, t.source = .phrase id → t.rates = none ∧ (s.phrase id).state = .ready) →
    (∀ id, t.source = .stream id →
      t.rates = none ∧ t.repeats = 1 ∧ ∃ i x, s.openSlot id = some i ∧ s.stream i = some x ∧ x.bound = none) →
      exec (.cuePlay num f) s =
        .next
          (State.answered
            { s with
              sched :=
                { entries :=
                    entries.map fun e =>
                      if becomesDue e then
                        (if e.cue.quantize = .off then
                          { cue := { e.cue with deadline := deadline e.cue }, state := .waiting }
                        else { e with state := .aligning })
                      else e
                  live := s.sched.live ++ [t.tag]
                  counter := s.sched.counter + 1 }
              alloc :=
                { s.alloc with
                  passes :=
                    s.alloc.passes + if entries.any fun e => becomesDue e && e.cue.quantize == .off then 1 else 0 }
              store :=
                (match t.source with
                  | .phrase id =>
                    { s.store with slots := s.store.slots.set id { s.phrase id with refs := (s.phrase id).refs + 1 } }
                  | _ => s.store)
              streams :=
                (match t.source with
                  | .stream id =>
                    (match s.openSlot id with
                      | some i =>
                        { s.streams with
                          slots := s.streams.slots.set i ((s.stream i).map fun x => { x with bound := some t.tag }) }
                      | none => s.streams)
                  | _ => s.streams) }
            .cuePlay num f (answerOk (be32 s.sched.counter ++ be32 c.due)))

/-- CUE.PLAY where a condition of R16 fails: the first that fails in the table's order gives the status, and nothing
changes. -/
def Obligations.CuePlayIsRefused : Prop :=
  ∀ (s : State) (num : Byte) (f : List Byte), s.Passes .cuePlay num f →
    let t := readTemplate f 0
    let refused (a : Answer) : Prop := exec (.cuePlay num f) s = .next (State.answered s .cuePlay num f a)
    (t.tag ∈ s.sched.live → refused { status := .tagInUse, results := [] }) ∧
    (t.tag ∉ s.sched.live →
      (∀ id, t.source = .phrase id →
        (t.rates ≠ none → refused { status := .badParam, results := [15, 0xFF] }) ∧
        (t.rates = none → (s.phrase id).state ≠ .ready → refused { status := .notReady, results := [] }) ∧
        (t.rates = none → (s.phrase id).state = .ready → 48 ≤ s.sched.entries.length →
          refused { status := .scheduleFull, results := [] })) ∧
      (∀ id, t.source = .stream id →
        (t.rates ≠ none → refused { status := .badParam, results := [15, 0xFF] }) ∧
        (t.rates = none → t.repeats ≠ 1 → refused { status := .badParam, results := [13, 0xFF] }) ∧
        (t.rates = none → t.repeats = 1 → s.openSlot id = none → refused { status := .streamState, results := [] }) ∧
        ∀ i x, t.rates = none → t.repeats = 1 → s.openSlot id = some i → s.stream i = some x →
          (x.bound ≠ none → refused { status := .streamBound, results := [] }) ∧
          (x.bound = none → 48 ≤ s.sched.entries.length → refused { status := .scheduleFull, results := [] })) ∧
      ((∀ id, t.source ≠ .phrase id) → (∀ id, t.source ≠ .stream id) → 48 ≤ s.sched.entries.length →
        refused { status := .scheduleFull, results := [] }))

/-- Removal without sounding (R15, R39): the record leaves its place, CUE_ENDED with the reason and no voice is offered,
the tag leaves the live set, and the cue's phrase reference or its stream is given up; a HANDOFF voice goes on in
ENDING. -/
def Obligations.RemovalWithoutSounding : Prop :=
  ∀ (s : State) (reason : EndReason),
    (∀ (l1 l2 : List Entry) (e : Entry), s.sched.entries = l1 ++ e :: l2 →
      (∀ x ∈ l1 ++ l2, x.cue.tag ≠ e.cue.tag) →
      let t : State :=
        { s with
          sched := { s.sched with entries := l1 ++ l2, live := s.sched.live.filter fun x => decide (x ≠ e.cue.tag) }
          reports := s.reports.offer (.cueEnded e.cue.tag reason none) s.time.tick }
      s.removeEntry e.cue.tag reason =
        (match e.cue.source with
          | .phrase id =>
            { t with
              store := { s.store with slots := s.store.slots.set id { s.phrase id with refs := (s.phrase id).refs - 1 } } }
          | .stream _ =>
            (match s.boundSlot e.cue.tag with
              | some i => t.closeStream i
              | none => t)
          | _ => t)) ∧
    ∀ (v : VoiceId) (c : Cue), (s.voice v).state = .handoff → (s.voice v).incoming = some c →
      let t : State :=
        { s with
          sched := { s.sched with live := s.sched.live.filter fun x => decide (x ≠ c.tag) }
          alloc := { s.alloc with voices := s.alloc.voices.set v { s.voice v with state := .ending, incoming := none } }
          reports := s.reports.offer (.cueEnded c.tag reason none) s.time.tick }
      s.removeIncoming v reason =
        (match c.source with
          | .phrase id =>
            { t with
              store := { s.store with slots := s.store.slots.set id { s.phrase id with refs := (s.phrase id).refs - 1 } } }
          | .stream _ =>
            (match s.boundSlot c.tag with
              | some i => t.closeStream i
              | none => t)
          | _ => t)

/-- Entry to ENDING in normal release (R41), an outstanding rate count step being taken first (log entry 19): both rates
become the release rate of the source (R70), and the reason is set; on voice 6 the bound stream is frozen: its starve
timer becomes absent and nothing else of it changes (R137); at level 0, or at rate 0, the cue ends at once. A cue that
is not PLAYING is not changed. What the record of voice 6 carries with it in the mixer is in `LevelsMove`. -/
def Obligations.CuesEnterEnding : Prop :=
  ∀ (s : State) (v : VoiceId) (reason : EndReason),
    ((s.voice v).state ≠ .active → s.enterEnding v reason = s) ∧
    ∀ k, (s.voice v).state = .active → (s.voice v).current = some k →
      let r := (s.voice v).rateStep
      let rate :=
        (match k.cue.source with
          | .phrase id => (s.phrase id).theHeader.rates.release
          | .tone _ _ _ => (k.cue.rates.getD { attack := 0, release := 4 }).release
          | .noise _ _ => (k.cue.rates.getD { attack := 0, release := 4 }).release
          | .stream _ => 1)
      let level := if rate = 0 then 0 else r.env.level
      let ending : Voice :=
        { r with
          state := .ending
          releaseMode := some .normal
          current := some { k with cue := { k.cue with endReason := some reason } }
          env := { r.env with phase := .release, level := level, rateCount := 0 }
          player := r.player.map fun p => { p with rates := { attack := rate, release := rate } } }
      let frozen : StreamUnit :=
        match s.boundSlot k.cue.tag with
        | some i =>
          { s.streams with slots := s.streams.slots.set i ((s.stream i).map fun x => { x with starve := none }) }
        | none => s.streams
      let t := if v = 6 then { s.putVoice v ending with streams := frozen }
        else { s with alloc := { s.alloc with voices := s.alloc.voices.set v ending } }
      s.enterEnding v reason = if level = 0 then ((t.endCurrent v).putVoice v Voice.idle).askPass else t

/-- The end of a cue on a voice (R42), and RELEASE_COMPLETE: CUE_ENDED with its reason and voice, the tag leaves the
live set, the references of the call phrase and of its own phrase are given up; the voice becomes IDLE, SILENT at
level 0 with its context cleared, and a pass is asked. That the target and the rate count of the IDLE record are 0 is the
model's choice (log entry 14), not R42's. Where the record that makes way had voice 6 duck, the duck target falls to 0
and the duck count is set to 0 (R100), an outstanding duck step being taken first (log entry 19). -/
def Obligations.ReleasesComplete : Prop :=
  (∀ (s : State) (v : VoiceId) (k : Current) (reason : EndReason), (s.voice v).current = some k →
    k.cue.endReason = some reason →
      let t : State :=
        { s with
          sched := { s.sched with live := s.sched.live.filter fun x => decide (x ≠ k.cue.tag) }
          reports := s.reports.offer (.cueEnded k.cue.tag reason (some v)) s.time.tick }
      let givenUp (x : State) (id : PhraseId) : State :=
        { x with
          store := { x.store with slots := x.store.slots.set id { x.phrase id with refs := (x.phrase id).refs - 1 } } }
      let called : State :=
        match (s.voice v).player.bind (·.call) with
        | some call => givenUp t call.phrase
        | none => t
      s.endCurrent v =
        (match k.cue.source with
          | .phrase id => givenUp called id
          | .stream _ =>
            (match s.boundSlot k.cue.tag with
              | some i => called.closeStream i
              | none => called)
          | _ => called)) ∧
  ∀ (s : State) (v : VoiceId), s.inReset = false → (s.voice v).state = .ending → (s.voice v).env.level = 0 →
    exec (.releaseComplete v) s = .next (State.chooseFrame ((s.endCurrent v).putVoice v Voice.idle).askPass) ∧
      ∀ t : State,
        let ducked : Bool :=
          v == 6 && (t.voice 6).state == .active && ((t.voice 6).current.any fun k => k.cue.duck) &&
            t.mixer.duckDepth != 0
        let m := t.mixer
        (t.putVoice v Voice.idle).askPass =
          { t with
            mixer :=
              if ducked then
                { m with
                  duckAmount :=
                    if m.duckCount = 8 then
                      (if m.duckAmount < m.duckDepth then m.duckAmount + 1
                      else if m.duckDepth < m.duckAmount then m.duckAmount - 1
                      else m.duckAmount)
                    else m.duckAmount
                  duckCount := 0 }
              else m
            alloc :=
              { voices :=
                  t.alloc.voices.set v
                    { state := .idle, current := none, releaseMode := none, incoming := none,
                      env := { phase := .silent, level := 0, target := 0, rateCount := 0 }, player := none, osc := none }
                passes := t.alloc.passes + 1 } }

/-- CUE.STOP and CUE.CUT by tag (R18 to R21): NO_SUCH_CUE; REMOVED from the schedule or an incoming place; on a voice,
ENDING_STARTED or ALREADY_ENDING for a stop, and CUT, the cue ended at once, for a cut. -/
def Obligations.CuesAreStoppedAndCutByTag : Prop :=
  (∀ (s : State) (num : Byte) (f : List Byte), s.Passes .cueStop num f → u8 f 0 = 0 → s.TagsOk →
    let tag := u16 f 1
    let answers (t : State) (a : Answer) : Prop := exec (.cueStop num f) s = .next (State.answered t .cueStop num f a)
    (tag ∉ s.sched.live → answers s { status := .noSuchCue, results := [] }) ∧
    (∀ e ∈ s.sched.entries, e.cue.tag = tag →
      answers (s.heard.removeEntry tag .stopped) { status := .ok, results := [0] }) ∧
    ∀ v,
      (∀ c, (s.voice v).incoming = some c → c.tag = tag →
        answers (s.heard.removeIncoming v .stopped) { status := .ok, results := [0] }) ∧
      ∀ k, (s.voice v).current = some k → k.cue.tag = tag →
        ((s.voice v).state = .active → answers (s.heard.enterEnding v .stopped) { status := .ok, results := [1] }) ∧
        ((s.voice v).state ≠ .active → answers s { status := .ok, results := [2] })) ∧
  ∀ (s : State) (num : Byte) (f : List Byte), s.Passes .cueCut num f → u8 f 0 = 0 → s.TagsOk →
    let tag := u16 f 1
    let answers (t : State) (a : Answer) : Prop := exec (.cueCut num f) s = .next (State.answered t .cueCut num f a)
    (tag ∉ s.sched.live → answers s { status := .noSuchCue, results := [] }) ∧
    (∀ e ∈ s.sched.entries, e.cue.tag = tag →
      answers (s.heard.removeEntry tag .cut) { status := .ok, results := [0] }) ∧
    ∀ v,
      (∀ c, (s.voice v).incoming = some c → c.tag = tag →
        answers (s.heard.removeIncoming v .cut) { status := .ok, results := [0] }) ∧
      ∀ k, (s.voice v).current = some k → k.cue.tag = tag →
        answers (s.heard.endAtOnce v .cut) { status := .ok, results := [3] }

/-- CUE.STOP by group mask and ALL (R18, R20, R22): the mask may not name group 0; every selected cue is acted on by its
state, the others are left, and the counts of the reply are those of the cues as the request found them. -/
def Obligations.CueStopByMask : Prop :=
  ∀ (s : State) (num : Byte) (f : List Byte), s.Passes .cueStop num f → s.Placed →
    (u8 f 0 = 1 → (u16 f 1).getLsbD 0 = true →
      exec (.cueStop num f) s = .next (State.answered s .cueStop num f { status := .badParam, results := [2, 0xFF] })) ∧
    ∀ selected : Cue → Bool,
      (u8 f 0 = 1 ∧ (u16 f 1).getLsbD 0 = false ∧ ∀ c, selected c = (u16 f 1).getLsbD c.group) ∨
          (u8 f 0 = 2 ∧ ∀ c, selected c = true) →
        let isIncoming (v : VoiceId) : Bool := (s.voice v).incoming.any selected
        let isCurrent (v : VoiceId) : Bool := (s.voice v).current.any fun k => selected k.cue
        ∃ t,
          exec (.cueStop num f) s =
            .next
              (State.answered t .cueStop num f
                (answerOk
                  [byteOf ((s.sched.entries.countP fun e => selected e.cue) + allVoices.countP isIncoming),
                    byteOf (allVoices.countP fun v => isCurrent v && (s.voice v).state == .active),
                    byteOf (allVoices.countP fun v => isCurrent v && (s.voice v).state != .active)])) ∧
          t.sched.entries = s.sched.entries.filter (fun e => !selected e.cue) ∧
          (∀ v,
            t.voice v =
              if isIncoming v then { s.voice v with state := .ending, incoming := none }
              else if isCurrent v && (s.voice v).state == .active then (s.enterEnding v .stopped).voice v
              else s.voice v) ∧
          t.sched.counter = s.sched.counter ∧ t.time = s.time ∧ t.pitchMap = s.pitchMap ∧ t.triggers = s.triggers ∧
          t.link = s.heard.link ∧ t.pending = s.pending

/-- CUE.CUT by group mask and ALL (R18, R21, R22, R40, R45): the selected entries and incoming cues are removed, the
selected current cues ended at once, and the counts are those of the cues as found. A HANDOFF voice with both cues
selected becomes IDLE; with the incoming cue alone selected it goes on in ENDING; with the departing cue alone selected
the incoming one starts, and one that is exclusive chokes the PLAYING cues of its group, the later of two such started
cues the earlier. Any other voice is as it was. -/
def Obligations.CueCutByMask : Prop :=
  ∀ (s : State) (num : Byte) (f : List Byte), s.Passes .cueCut num f → s.Placed →
    (u8 f 0 = 1 → (u16 f 1).getLsbD 0 = true →
      exec (.cueCut num f) s = .next (State.answered s .cueCut num f { status := .badParam, results := [2, 0xFF] })) ∧
    ∀ selected : Cue → Bool,
      (u8 f 0 = 1 ∧ (u16 f 1).getLsbD 0 = false ∧ ∀ c, selected c = (u16 f 1).getLsbD c.group) ∨
          (u8 f 0 = 2 ∧ ∀ c, selected c = true) →
        let isIncoming (v : VoiceId) : Bool := (s.voice v).incoming.any selected
        let isCurrent (v : VoiceId) : Bool := (s.voice v).current.any fun k => selected k.cue
        let starts (v : VoiceId) : Option Cue := if isCurrent v && !isIncoming v then (s.voice v).incoming else none
        let chokes (u : VoiceId) (group : Nat) : Bool :=
          (starts u).any fun c => c.exclusive && c.group != 0 && c.group == group
        ∃ t,
          exec (.cueCut num f) s =
            .next
              (State.answered t .cueCut num f
                (answerOk
                  [byteOf ((s.sched.entries.countP fun e => selected e.cue) + allVoices.countP isIncoming),
                    byteOf (allVoices.countP isCurrent)])) ∧
          t.sched.entries = s.sched.entries.filter (fun e => !selected e.cue) ∧
          (∀ v,
            (isCurrent v = true → ((s.voice v).incoming = none ∨ isIncoming v = true) → t.voice v = Voice.idle) ∧
            (isCurrent v = false → isIncoming v = true →
              t.voice v = { s.voice v with state := .ending, incoming := none }) ∧
            (∀ c, starts v = some c →
              t.voice v =
                if allVoices.any fun u => decide (v < u) && chokes u c.group then
                  ((s.startCue v c).enterEnding v .choked).voice v
                else (s.startCue v c).voice v) ∧
            (isCurrent v = false → isIncoming v = false →
              t.voice v =
                if (s.voice v).state = .active ∧
                    (allVoices.any fun u => (s.voice v).current.any fun k => chokes u k.cue.group) = true then
                  (s.enterEnding v .choked).voice v
                else s.voice v)) ∧
          t.time = s.time ∧ t.pitchMap = s.pitchMap ∧ t.triggers = s.triggers ∧ t.link = s.heard.link ∧
          t.pending = s.pending

/-- CUE.ADJUST (R23): the refusals in their order; in the schedule and the incoming place the record takes the new
values; on a voice the envelope takes the target of the new volume too, by its phase (R71, R72, R98), an outstanding rate
count step first (log entry 19): in ATTACK, and in HOLD where the level differs, it moves toward the target from rate
count 0, and stands in HOLD there at once at a rate of 0; in RELEASE and SILENT the target alone is replaced. A raised
priority asks for a pass. -/
def Obligations.CueAdjustChanges : Prop :=
  ∀ (s : State) (num : Byte) (f : List Byte), s.Passes .cueAdjust num f → s.Placed →
    let tag := u16 f 0
    let volume : Option Nat := if (u8 f 2).getLsbD 0 then some (u8 f 3).toNat else none
    let priority : Option Nat := if (u8 f 2).getLsbD 1 then some (u8 f 4).toNat else none
    let adjusted (c : Cue) : Cue := { c with volume := volume.getD c.volume, priority := priority.getD c.priority }
    let asked (c : Cue) (t : State) : State :=
      if c.priority < (adjusted c).priority then { t with alloc := { t.alloc with passes := t.alloc.passes + 1 } } else t
    let answers (t : State) (a : Answer) : Prop := exec (.cueAdjust num f) s = .next (State.answered t .cueAdjust num f a)
    let results (state : Byte) (c : Cue) : Answer :=
      answerOk [state, byteOf (adjusted c).volume, byteOf (adjusted c).priority]
    (volume = none → priority = none → answers s { status := .badParam, results := [2, 0xFF] }) ∧
    (volume ≠ none ∨ priority ≠ none →
      (tag ∉ s.sched.live → answers s { status := .noSuchCue, results := [] }) ∧
      (∀ e ∈ s.sched.entries, e.cue.tag = tag →
        answers
          (asked e.cue
            { s with
              sched :=
                { s.sched with
                  entries :=
                    s.sched.entries.map fun x => if x.cue.tag = tag then { x with cue := adjusted x.cue } else x } })
          (results
            (match e.state with
              | .scheduled => 0
              | .aligning => 1
              | .waiting => 2)
            e.cue)) ∧
      (∀ v c k, (s.voice v).incoming = some c → c.tag = tag → (s.voice v).current = some k →
        ((∃ x, priority = some x ∧ x ≤ k.cue.priority) → answers s { status := .cueState, results := [] }) ∧
        ((∀ x, priority = some x → k.cue.priority < x) →
          answers (asked c (s.heard.putVoice v { s.voice v with incoming := some (adjusted c) })) (results 3 c))) ∧
      ∀ v k, (s.voice v).current = some k → k.cue.tag = tag →
        ((s.voice v).state ≠ .active → answers s { status := .cueState, results := [] }) ∧
        ((s.voice v).state = .active →
          let target : Option Nat :=
            if v = 6 then volume
            else
              match volume, (s.voice v).player.bind (·.stepVolume) with
              | some x, some sv => some (sv * x / 15)
              | _, _ => none
          let rates : Rates :=
            match (s.voice v).player with
            | some p => p.rates
            | none => { attack := 0, release := 1 }
          let e := (s.voice v).rateStep.env
          let moved (g : Nat) : Envelope :=
            if (e.level < g ∧ rates.attack = 0) ∨ (g < e.level ∧ rates.release = 0) then
              { phase := .hold, level := g, target := g, rateCount := 0 }
            else { phase := .attack, level := e.level, target := g, rateCount := 0 }
          let env :=
            match target with
            | some g =>
              (match e.phase with
                | .attack =>
                  if e.level = g then { phase := .hold, level := g, target := g, rateCount := 0 } else moved g
                | .hold => if e.level = g then { e with target := g } else moved g
                | .release => { e with target := g }
                | .silent => { e with target := g })
            | none => (s.voice v).env
          answers
            (asked k.cue
              (s.heard.putVoice v { s.voice v with env := env, current := some { k with cue := adjusted k.cue } }))
            (results 4 k.cue)))

/-- CUE.QUERY (R24, 11.6) changes nothing; it gives the cue's state, voice, ticks, numbers, and what only a WAITING or
an ENDING cue has. -/
def Obligations.CueQueryReads : Prop :=
  ∀ (s : State) (num : Byte) (f : List Byte), s.Passes .cueQuery num f → s.TagsOk →
    let tag := u16 f 0
    let answers (a : Answer) : Prop := exec (.cueQuery num f) s = .next (State.answered s .cueQuery num f a)
    let results (state voice : Byte) (c : Cue) (repeats : Nat) (deadline : Option Tick) (reason : Option EndReason) :
        Answer :=
      answerOk
        ([state, voice] ++ be32 c.due ++ be32 c.acceptance ++ [byteOf c.priority, byteOf c.volume, byteOf repeats,
            (if deadline = none then 0 else 1) + if reason = none then 0 else 2] ++
          be32 (deadline.getD 0) ++
          [match reason with
            | some r => r.code
            | none => 0xFF])
    let stored (c : Cue) : Nat :=
      match c.source with
      | .phrase _ => c.repeats
      | _ => 1
    (tag ∉ s.sched.live → answers { status := .noSuchCue, results := [] }) ∧
    (∀ e ∈ s.sched.entries, e.cue.tag = tag →
      answers
        (match e.state with
          | .scheduled => results 0 0xFF e.cue (stored e.cue) none none
          | .aligning => results 1 0xFF e.cue (stored e.cue) none none
          | .waiting => results 2 0xFF e.cue (stored e.cue) e.cue.deadline none)) ∧
    ∀ v,
      (∀ c, (s.voice v).incoming = some c → c.tag = tag → answers (results 3 (byteOf v.val) c (stored c) none none)) ∧
      ∀ k, (s.voice v).current = some k → k.cue.tag = tag →
        let left : Nat :=
          match k.cue.source, (s.voice v).player with
          | .phrase _, some p => p.repeatsLeft
          | _, _ => 1
        ((s.voice v).state = .active → answers (results 4 (byteOf v.val) k.cue left none none)) ∧
        ((s.voice v).state ≠ .active → answers (results 5 (byteOf v.val) k.cue left none k.cue.endReason))

/-- DUE_EVENT (R8, R12): the SCHEDULED entries whose due tick is reached (those of an advance: log entry 20), in their
places, become WAITING with the deadline of their window, or ALIGNING, by their quantize field; one pass is asked if any
entered WAITING. WAIT_DEADLINE (R13): the WAITING entry at its deadline is removed LATE; an entry that is not WAITING,
or has no deadline, stays (log entry 2: the model's choice). -/
def Obligations.DueEventsAndDeadlines : Prop :=
  (∀ s : State, s.inReset = false →
    let takes (e : Entry) : Bool := e.state == .scheduled && decide ((s.time.tick - e.cue.due).toNat < 2 ^ 31)
    let deadline (c : Cue) : Option Tick :=
      if c.window = 0 ∨ c.window = 65535 then none else some (s.time.tick + BitVec.ofNat 32 c.window)
    exec .dueEvent s =
      .next
        (State.chooseFrame
          { s with
            sched :=
              { s.sched with
                entries :=
                  s.sched.entries.map fun e =>
                    if takes e then
                      (if e.cue.quantize = .off then
                        { cue := { e.cue with deadline := deadline e.cue }, state := .waiting }
                      else { e with state := .aligning })
                    else e }
            alloc :=
              { s.alloc with
                passes :=
                  s.alloc.passes + if s.sched.entries.any fun e => takes e && e.cue.quantize == .off then 1 else 0 } })) ∧
  ∀ (s : State) (l1 l2 : List Entry) (e : Entry), s.inReset = false → s.sched.entries = l1 ++ e :: l2 →
    (∀ x ∈ l1 ++ l2, x.cue.tag ≠ e.cue.tag) →
      (∀ d, e.state = .waiting → e.cue.deadline = some d → (s.time.tick - d).toNat < 2 ^ 31 →
        exec (.waitDeadline e.cue.tag) s = .next (s.removeEntry e.cue.tag .late).chooseFrame) ∧
      (e.state ≠ .waiting ∨ e.cue.deadline = none → exec (.waitDeadline e.cue.tag) s = .next s.chooseFrame)

/-! ### Phrases -/

/-- PHRASE.BEGIN, PHRASE.END and PHRASE.DROP (R57, R60, R61): each refusal in its order, and the slot, the build context
and the free page list after each. -/
def Obligations.PhrasesAreBuiltAndDropped : Prop :=
  (∀ (s : State) (num : Byte) (f : List Byte), s.Passes .phraseBegin num f →
    let id : PhraseId := Fin.ofNat 32 (u8 f 0).toNat
    let answers (t : State) (a : Answer) : Prop :=
      exec (.phraseBegin num f) s = .next (State.answered t .phraseBegin num f a)
    ((s.phrase id).state ≠ .empty → answers s { status := .exists, results := [] }) ∧
    ((s.phrase id).state = .empty → s.store.build ≠ none → answers s { status := .buildBusy, results := [] }) ∧
    ((s.phrase id).state = .empty → s.store.build = none →
      answers
        { s with
          store :=
            { s.store with
              slots :=
                s.store.slots.set id
                  { state := .building
                    header :=
                      some
                        { shape :=
                            if u8 f 1 = 0 then .square
                            else if u8 f 1 = 1 then .pulse25
                            else if u8 f 1 = 2 then .pulse12
                            else .noise
                          rates := { attack := (u8 f 2).toNat, release := (u8 f 3).toNat }
                          tempoRelative := u8 f 4 = 1 }
                    stepCount := 0
                    pages := []
                    refs := 0 }
              build := some id } }
        (answerOk [byteOf id.val, byteOf s.store.freePages.length]))) ∧
  (∀ (s : State) (num : Byte) (f : List Byte), s.Passes .phraseEnd num f →
    let answers (t : State) (a : Answer) : Prop := exec (.phraseEnd num f) s = .next (State.answered t .phraseEnd num f a)
    (s.store.build = none → answers s { status := .phraseState, results := [] }) ∧
    ∀ id, s.store.build = some id →
      let timed (i : Nat) : Prop :=
        (∃ n d v g, s.store.stepAt (s.phrase id) i = some (.note n d v g)) ∨
          ∃ d, s.store.stepAt (s.phrase id) i = some (.rest d)
      ((∀ i, i < (s.phrase id).stepCount → ¬timed i) → answers s { status := .noTimedStep, results := [] }) ∧
      ((∃ i, i < (s.phrase id).stepCount ∧ timed i) →
        answers
          { s with
            store :=
              { s.store with slots := s.store.slots.set id { s.phrase id with state := .ready }, build := none } }
          (answerOk
            (byteOf id.val :: be16 (halfOf (s.phrase id).stepCount) ++ [byteOf (s.phrase id).pages.length])))) ∧
  ∀ (s : State) (num : Byte) (f : List Byte), s.Passes .phraseDrop num f →
    let id : PhraseId := Fin.ofNat 32 (u8 f 0).toNat
    let answers (t : State) (a : Answer) : Prop := exec (.phraseDrop num f) s = .next (State.answered t .phraseDrop num f a)
    ((s.phrase id).state = .empty → answers s { status := .phraseState, results := [] }) ∧
    ((s.phrase id).state ≠ .empty → 0 < (s.phrase id).refs →
      answers s { status := .inUse, results := [byteOf (s.phrase id).refs] }) ∧
    ((s.phrase id).state ≠ .empty → (s.phrase id).refs = 0 →
      answers
        { s with
          store :=
            { s.store with
              slots :=
                s.store.slots.set id { state := .empty, header := none, stepCount := 0, pages := [], refs := 0 }
              freePages := s.store.freePages ++ (s.phrase id).pages
              build := if s.store.build = some id then none else s.store.build } }
        (answerOk
          [byteOf id.val, byteOf (s.phrase id).pages.length,
            byteOf (s.store.freePages.length + (s.phrase id).pages.length)]))

/-- PHRASE.ADD (R52, R58, R59): the conditions in their order; an accepted one appends the steps as given, on pages from
the head of the free page list, and no other phrase's steps change. And which six bytes are which step, any other
six being a bad step. -/
def Obligations.PhraseAddAppends : Prop :=
  (∀ (s : State) (num : Byte) (f : List Byte), s.Passes .phraseAdd num f → s.store.Ok →
    let answers (t : PhraseStore) (a : Answer) : Prop :=
      exec (.phraseAdd num f) s = .next (State.answered { s with store := t } .phraseAdd num f a)
    let n := (u8 f 0).toNat
    (s.store.build = none → answers s.store { status := .phraseState, results := [] }) ∧
    ∀ id, s.store.build = some id →
      let p := s.phrase id
      let need := (p.stepCount + n + 15) / 16 - p.pages.length
      let offered (k : Nat) : Option Step := readStep f (1 + 6 * k) id
      (256 < p.stepCount + n → answers s.store { status := .tooLong, results := be16 (halfOf p.stepCount) }) ∧
      (p.stepCount + n ≤ 256 →
        (s.store.freePages.length < need →
          answers s.store { status := .noSpace, results := [byteOf s.store.freePages.length] }) ∧
        (need ≤ s.store.freePages.length →
          (∀ k, k < n → offered k = none → (∀ j, j < k → offered j ≠ none) →
            answers s.store { status := .badParam, results := [2, byteOf k] }) ∧
          ((∀ k, k < n → offered k ≠ none) →
            ∃ t,
              answers t
                (answerOk
                  (be16 (halfOf (p.stepCount + n)) ++
                    [byteOf ((p.stepCount + n + 15) / 16), byteOf (s.store.freePages.length - need)])) ∧
              t.slots[id] =
                { p with stepCount := p.stepCount + n, pages := p.pages ++ s.store.freePages.take need } ∧
              t.freePages = s.store.freePages.drop need ∧ t.build = s.store.build ∧
              (∀ i, i < p.stepCount → t.stepAt t.slots[id] i = s.store.stepAt p i) ∧
              (∀ k, k < n → t.stepAt t.slots[id] (p.stepCount + k) = offered k) ∧
              ∀ j : PhraseId, j ≠ id →
                t.slots[j] = s.phrase j ∧ ∀ i, t.stepAt t.slots[j] i = s.store.stepAt (s.phrase j) i)))) ∧
  ∀ (f : List Byte) (o : Nat) (self : PhraseId),
    let b (i : Nat) : Byte := u8 f (o + i)
    let duration := (b 2 ++ b 3).toNat
    readStep f o self =
      if b 0 = 0 ∧ b 1 ≤ 127 ∧ 1 ≤ duration ∧ duration ≤ 4095 ∧ b 4 ≤ 15 ∧ 1 ≤ b 5 ∧ b 5 ≤ 8 then
        some (.note (Fin.ofNat 128 (b 1).toNat) duration (b 4).toNat (b 5).toNat)
      else if b 0 = 1 ∧ 1 ≤ duration ∧ duration ≤ 4095 then some (.rest duration)
      else if b 0 = 2 ∧ b 1 ≤ 31 ∧ (b 1).toNat ≠ self.val then some (.call (Fin.ofNat 32 (b 1).toNat))
      else if b 0 = 3 then some (.mark (b 1))
      else if b 0 = 4 ∧ b 1 ≤ 3 then
        some
          (.shape
            (if b 1 = 0 then .square else if b 1 = 1 then .pulse25 else if b 1 = 2 then .pulse12 else .noise))
      else none

/-- STATUS, PHRASE.INFO, MAP.READ and CLOCK.READ (R62, R92, R114, R191) change nothing but the link, and give what the
blocks hold; a STATUS of no fields passes the common checks in every session state. An outstanding beat edge and loss
are taken before a CLOCK.READ, the frame they make ready being begun (R120, R164, log entry 28). -/
def Obligations.ReadsChangeNothing : Prop :=
  (∀ (s : State) (num : Byte), s.Takes .status num [] → s.Passes .status num []) ∧
  (∀ (s : State) (num : Byte) (f : List Byte), s.Passes .status num f →
    exec (.status num f) s =
      .next
        (State.answered s .status num f
          (answerOk
            ([(match s.link.session with
                | .closed => 0
                | .opened => 1
                | .stalled => 2),
              byteOf s.sched.entries.length] ++
              ([0, 1, 2, 3, 4, 5, 6] : List VoiceId).flatMap (fun v =>
                (match (s.voice v).state with
                  | .idle => (0 : Byte)
                  | .active => 1
                  | .ending => 2
                  | .handoff => 3) ::
                  be16
                    (match (s.voice v).current with
                      | some k => k.cue.tag
                      | none => 0)) ++
              ([0, 1] : List StreamSlotId).flatMap (fun i =>
                match s.stream i with
                | none => [(0 : Byte), 0]
                | some t =>
                  [(match t.state with
                      | .filling => 1
                      | .ready => 2
                      | .playing => 3
                      | .starved => 4),
                    t.id]) ++
              [byteOf s.streams.freeBlocks.length, byteOf s.store.freePages.length,
                (match s.store.build with
                  | some id => byteOf id.val
                  | none => 0xFF),
                (match s.time.sync with
                  | .internal => 0
                  | .seeking => 1
                  | .locked => 2
                  | .fallback => 3),
                byteOf s.reports.queue.length, s.reports.nextSequence] ++
              be16 (halfOf s.link.discards) ++ be16 (halfOf s.link.overruns))))) ∧
  (∀ (s : State) (num : Byte) (f : List Byte), s.Passes .phraseInfo num f →
    let p := s.phrase (Fin.ofNat 32 (u8 f 0).toNat)
    let timed (i : Nat) : Bool :=
      match s.store.stepAt p i with
      | some (.note _ _ _ _) => true
      | some (.rest _) => true
      | _ => false
    exec (.phraseInfo num f) s =
      .next
        (State.answered s .phraseInfo num f
          (answerOk
            ([match p.state with
                | .empty => (0 : Byte)
                | .building => 1
                | .ready => 2] ++
              (match p.header with
                | some h =>
                  [h.shape.code, byteOf h.rates.attack, byteOf h.rates.release, if h.tempoRelative then 1 else 0]
                | none => [0, 0, 0, 0]) ++
              be16 (halfOf p.stepCount) ++ [byteOf p.pages.length, byteOf p.refs] ++
              be16 (halfOf ((List.range p.stepCount).countP timed)) ++ p.pages.map fun g => byteOf g.val)))) ∧
  (∀ (s : State) (num : Byte) (f : List Byte), s.Passes .mapRead num f →
    let first := (u8 f 0).toNat
    let count := (u8 f 1).toNat
    exec (.mapRead num f) s =
      .next
        (State.answered s .mapRead num f
          (if 127 < first + count - 1 then { status := .badParam, results := [1, 0xFF] }
          else
            answerOk
              ([u8 f 0, u8 f 1] ++
                (List.range count).flatMap fun k => be16 (halfOf (s.pitchMap.toList.getD (first + k) 0)))))) ∧
  ∀ (s : State) (num : Byte) (f : List Byte), s.Passes .clockRead num f →
    let s1 : State := if s.time.beatAsk = none then s.heard else s.heard.takeBeat.chooseFrame
    let s2 : State := if s1.time.lossFound then s1.takeLoss.chooseFrame else s1
    let t := s2.time
    let bit (b : Bool) (weight : Byte) : Byte := if b then weight else 0
    exec (.clockRead num f) s =
      .next
        (State.answered s2 .clockRead num f
          (answerOk
            (be32 t.tick ++ [byteOf t.beatInBar] ++ be16 t.barNumber ++ be16 (halfOf t.effectiveBeat) ++
              [t.sync.code, t.source.code] ++ be16 (halfOf t.configuredBeat) ++
              [byteOf t.configuredBar,
                bit t.lengthPending 1 + bit t.barRestart 2 + bit t.lastBeat.isSome 4 + bit t.previousSync.isSome 8] ++
              be32 (t.lastBeat.getD 0) ++ be32 (t.previousSync.getD 0))))

/-! ### The pitch map, the mixer's settings, the clock's settings -/

/-- MAP.WRITE and MAP.RESTORE (R90, R91, R93): a run past entry 127 or a value of 1 to 31 is refused and changes
nothing; otherwise the run of entries takes the values; a restore gives every note its nearest equal-tempered
period. -/
def Obligations.MapIsWrittenAndRestored : Prop :=
  (∀ (s : State) (num : Byte) (f : List Byte), s.Passes .mapWrite num f →
    let first := (u8 f 0).toNat
    let count := (u8 f 1).toNat
    let value (k : Nat) : Nat := (u8 f (2 + 2 * k) ++ u8 f (3 + 2 * k)).toNat
    let answers (m : Vector Nat 128) (a : Answer) : Prop :=
      exec (.mapWrite num f) s = .next (State.answered { s with pitchMap := m } .mapWrite num f a)
    (127 < first + count - 1 → answers s.pitchMap { status := .badParam, results := [1, 0xFF] }) ∧
    (first + count - 1 ≤ 127 →
      (∀ k, k < count → 1 ≤ value k → value k ≤ 31 → (∀ j, j < k → value j = 0 ∨ 32 ≤ value j) →
        answers s.pitchMap { status := .badParam, results := [3, byteOf k] }) ∧
      ((∀ k, k < count → value k = 0 ∨ 32 ≤ value k) →
        ∃ m,
          answers m (answerOk [u8 f 0, u8 f 1]) ∧
          ∀ n : Note,
            m[n] = if first ≤ n.val ∧ n.val < first + count then value (n.val - first) else s.pitchMap[n]))) ∧
  ∀ (s : State) (num : Byte) (f : List Byte), s.Passes .mapRestore num f →
    ∃ m : Vector Nat 128,
      exec (.mapRestore num f) s =
        .next (State.answered { s with pitchMap := m } .mapRestore num f { status := .ok, results := [] }) ∧
      ∀ n : Note, nearestPeriod n.val m[n] ∧ 32 ≤ m[n] ∧ m[n] ≤ 65535

/-- OUTPUT.SET (R102): each present setting is replaced, the others kept; a given duck depth sets the duck count to 0,
also where it leaves the duck target as it is (log entry 30), an outstanding duck step being taken first (log entry 19);
the reply gives the settings, M, the duck amount and MUTEN. -/
def Obligations.OutputSettingsAreSet : Prop :=
  ∀ (s : State) (num : Byte) (f : List Byte), s.Passes .outputSet num f →
    let flags := u8 f 0
    let ducking : Bool :=
      match (s.voice 6).state, (s.voice 6).current with
      | .active, some k => k.cue.duck
      | _, _ => false
    let target := if ducking then s.mixer.duckDepth else 0
    let m : Mixer :=
      { s.mixer with
        masterVolume := if flags.getLsbD 0 then (u8 f 1).toNat else s.mixer.masterVolume
        duckDepth := if flags.getLsbD 1 then (u8 f 2).toNat else s.mixer.duckDepth
        softMute := if flags.getLsbD 2 then decide (u8 f 3 = 1) else s.mixer.softMute
        outputMode :=
          if flags.getLsbD 3 then (if u8 f 4 = 1 then .single else .bridge) else s.mixer.outputMode
        duckCount := if flags.getLsbD 1 then 0 else s.mixer.duckCount
        duckAmount :=
          if flags.getLsbD 1 = true ∧ s.mixer.duckCount = 8 then
            (if s.mixer.duckAmount < target then s.mixer.duckAmount + 1
            else if target < s.mixer.duckAmount then s.mixer.duckAmount - 1
            else s.mixer.duckAmount)
          else s.mixer.duckAmount }
    exec (.outputSet num f) s =
      .next
        (State.answered { s with mixer := m } .outputSet num f
          (answerOk
            [byteOf m.masterVolume, byteOf m.duckDepth, if m.softMute then 1 else 0,
              (match m.outputMode with
                | .bridge => 0
                | .single => 1),
              byteOf m.masterFactor, byteOf m.duckAmount, if m.muten then 1 else 0]))

/-- CLOCK.SET and CLOCK.BAR (R112, R113, R116): a beat length waits for the next edge, beats per bar are stored, a
change of source takes effect at once, a bar restart waits for the next edge; an advance taken first has its edge and
its loss taken first, and the frame they make ready begun (R120, R164, log entry 19). -/
def Obligations.ClockIsSet : Prop :=
  (∀ (s : State) (num : Byte) (f : List Byte), s.Passes .clockSet num f →
    let flags := u8 f 0
    let source : ClockSource :=
      if flags.getLsbD 2 then (if u8 f 4 = 1 then .external else .internal) else s.time.source
    let edge : State := if s.time.beatAsk = none then s.heard else s.heard.takeBeat.chooseFrame
    let s1 : State := if edge.time.lossFound then edge.takeLoss.chooseFrame else edge
    let kept : TimeBase :=
      { s1.time with
        configuredBeat := if flags.getLsbD 0 then (u8 f 1 ++ u8 f 2).toNat else s1.time.configuredBeat
        lengthPending := flags.getLsbD 0 || s1.time.lengthPending
        configuredBar := if flags.getLsbD 1 then (u8 f 3).toNat else s1.time.configuredBar }
    let t : TimeBase :=
      if source = s.time.source then kept
      else if source = .external then
        { kept with source := .external, sync := .seeking, lossReference := some s1.time.tick, previousSync := none }
      else
        { kept with
          source := .internal, sync := .internal, lossReference := none, previousSync := none, lengthPending := true }
    exec (.clockSet num f) s =
      .next
        (State.answered { s1 with time := t } .clockSet num f
          (answerOk
            (be16 (halfOf t.configuredBeat) ++
              [if t.lengthPending then 1 else 0, byteOf t.configuredBar, t.source.code, t.sync.code] ++
              be16 (halfOf t.effectiveBeat))))) ∧
  ∀ (s : State) (num : Byte) (f : List Byte), s.Passes .clockBar num f →
    exec (.clockBar num f) s =
      .next
        (let edge : State := if s.time.beatAsk = none then s.heard else s.heard.takeBeat.chooseFrame
         let s1 : State := if edge.time.lossFound then edge.takeLoss.chooseFrame else edge
         State.answered { s1 with time := { s1.time with barRestart := true } } .clockBar num f
          (answerOk (byteOf s1.time.beatInBar :: be16 s1.time.barNumber)))

/-! ### Streams and triggers -/

/-- STREAM.DATA (R127, R128, R136): the outcomes in their order; a block under the expected sequence is taken from the
head of the free list, and may make the stream READY, which asks for a pass, or resume it. A starve limit that an
advance has reached is taken first (R140, log entry 3). -/
def Obligations.StreamDataIsTaken : Prop :=
  ∀ (s0 : State) (num : Byte) (f : List Byte), s0.Passes .streamData num f →
    let s : State :=
      match s0.openSlot (u8 f 0) with
      | some i =>
        if (s0.stream i).any fun t => t.state == .starved && t.starve == some 2000 then
          (s0.heard.starveLimit i).chooseFrame
        else s0.heard
      | none => s0.heard
    let seq := u8 f 1 ++ u8 f 2
    let free := s.streams.freeBlocks.length
    let answers (t : State) (st : Status) (results : List Byte) : Prop :=
      exec (.streamData num f) s0 = .next (State.answered t .streamData num f { status := st, results := results })
    (s.openSlot (u8 f 0) = none → answers s .streamState [0xFF, 0, 0, 0, 0, byteOf free]) ∧
    ∀ i t, s.openSlot (u8 f 0) = some i → s.stream i = some t →
      let unstored (outcome : Byte) : List Byte :=
        outcome :: be16 t.expected ++ [streamCode (some t), byteOf t.filled.length, byteOf free]
      (t.last = true → answers s .streamState (unstored 0xFF)) ∧
      (t.last = false → seq = t.expected → s.streams.freeBlocks = [] → answers s .ringFull (unstored 0xFF)) ∧
      (t.last = false → seq ≠ t.expected → 1 ≤ (t.expected - seq).toNat → (t.expected - seq).toNat ≤ 32 →
        answers s .ok (unstored 1)) ∧
      (t.last = false → 32 < (t.expected - seq).toNat → answers s .outOfOrder (unstored 0xFF)) ∧
      ∀ b rest, t.last = false → seq = t.expected → s.streams.freeBlocks = b :: rest →
        let t1 : OpenStream := { t with filled := t.filled ++ [b], expected := t.expected + 1 }
        let put (u : OpenStream) : State :=
          { s with
            streams :=
              { slots := s.streams.slots.set i (some u)
                blocks := s.streams.blocks.set b (some { sequence := seq, data := f.drop 3 })
                freeBlocks := rest } }
        let stored (state : Byte) : List Byte :=
          0 :: be16 (t.expected + 1) ++ [state, byteOf (t.filled.length + 1), byteOf (free - 1)]
        let full := t.prefill ≤ t.filled.length + 1
        let resumes :=
          t.state = .starved ∧ t.policy = .pause ∧ s.boundPlaying t = true ∧ full
        (t.state = .filling → full →
          answers
            { put { t1 with state := .ready } with alloc := { s.alloc with passes := s.alloc.passes + 1 } } .ok
            (stored 2)) ∧
        (resumes →
          answers
            ((put { t1 with state := .playing, starve := none, read := some { index := 0, holdCount := 0 } }).offer
              (.streamResumed t.id))
            .ok (stored 3)) ∧
        (¬(t.state = .filling ∧ full) → ¬resumes → answers (put t1) .ok (stored (streamCode (some t))))

/-- STREAM.OPEN, STREAM.END and STREAM.ABORT (R126, R129, R138, R139), and the close of a stream: its blocks go to the
tail of the free list, STREAM_CREDIT is offered when that lifts the count to 8, and the slot is CLOSED. STREAM.END meets
a starve limit that an advance has reached taken first (R140, log entry 3). -/
def Obligations.StreamsOpenEndAndClose : Prop :=
  (∀ (s : State) (num : Byte) (f : List Byte), s.Passes .streamOpen num f →
    let free := byteOf s.streams.freeBlocks.length
    let refused : Prop :=
      exec (.streamOpen num f) s =
        .next
          (State.answered s .streamOpen num f
            { status := .streamState, results := [free, streamCode (s.stream 0), streamCode (s.stream 1)] })
    ((∃ i t, s.stream i = some t ∧ t.id = u8 f 0) → refused) ∧
    (s.stream 0 ≠ none → s.stream 1 ≠ none → refused) ∧
    ∀ i, (∀ j t, s.stream j = some t → t.id ≠ u8 f 0) → s.stream i = none → (∀ j, j < i → s.stream j ≠ none) →
      exec (.streamOpen num f) s =
        .next
          (State.answered
            { s with
              streams :=
                { s.streams with
                  slots :=
                    s.streams.slots.set i
                      (some
                        { state := .filling, id := u8 f 0, rate := Fin.ofNat 4 (u8 f 1).toNat
                          prefill := (u8 f 2).toNat, policy := if u8 f 3 = 1 then .finish else .pause, expected := 0
                          last := false, filled := [], bound := none, read := none, starve := none }) } }
            .streamOpen num f (answerOk [byteOf i.val, free]))) ∧
  (∀ (s0 : State) (num : Byte) (f : List Byte), s0.Passes .streamEnd num f →
    let s : State :=
      match s0.openSlot (u8 f 0) with
      | some i =>
        if (s0.stream i).any fun t => t.state == .starved && t.starve == some 2000 then
          (s0.heard.starveLimit i).chooseFrame
        else s0.heard
      | none => s0.heard
    let free := byteOf s.streams.freeBlocks.length
    let answers (t : State) (st : Status) (results : List Byte) : Prop :=
      exec (.streamEnd num f) s0 = .next (State.answered t .streamEnd num f { status := st, results := results })
    (s.openSlot (u8 f 0) = none → answers s .streamState [free]) ∧
    ∀ i t, s.openSlot (u8 f 0) = some i → s.stream i = some t →
      let put (u : OpenStream) : State :=
        { s with streams := { s.streams with slots := s.streams.slots.set i (some u) } }
      let resumes := t.state = .starved ∧ t.policy = .pause ∧ s.boundPlaying t = true
      (t.last = true → answers s .streamState [free]) ∧
      (t.last = false → t.state = .filling →
        answers
          { put { t with last := true, state := .ready } with
            alloc := { s.alloc with passes := s.alloc.passes + 1 } }
          .ok [2, byteOf t.filled.length, free]) ∧
      (t.last = false → t.state ≠ .filling → ¬resumes →
        answers (put { t with last := true }) .ok [streamCode (some t), byteOf t.filled.length, free]) ∧
      (t.last = false → resumes →
        let resumed : State :=
          (put
              { t with
                last := true, state := .playing, starve := none, read := some { index := 0, holdCount := 0 } }).offer
            (.streamResumed t.id)
        let ended := resumed.enterEnding 6 .finished
        (t.filled ≠ [] → answers resumed .ok [3, byteOf t.filled.length, free]) ∧
        (t.filled = [] →
          answers ended .ok [streamCode (ended.stream i), 0, byteOf ended.streams.freeBlocks.length]))) ∧
  (∀ (s : State) (num : Byte) (f : List Byte), s.Passes .streamAbort num f → s.Placed →
    let answers (t : State) (outcome : Byte) (freed : Nat) : Prop :=
      exec (.streamAbort num f) s =
        .next
          (State.answered t .streamAbort num f
            (answerOk [outcome, byteOf freed, byteOf t.streams.freeBlocks.length]))
    (s.openSlot (u8 f 0) = none →
      exec (.streamAbort num f) s =
        .next
          (State.answered s .streamAbort num f
            { status := .streamState, results := [byteOf s.streams.freeBlocks.length] })) ∧
    ∀ i t, s.openSlot (u8 f 0) = some i → s.stream i = some t →
      (t.bound = none → answers (s.heard.closeStream i) 0 t.filled.length) ∧
      ∀ tag, t.bound = some tag →
        (∀ e ∈ s.sched.entries, e.cue.tag = tag → answers (s.heard.removeEntry tag .aborted) 1 t.filled.length) ∧
        ∀ v,
          (∀ c, (s.voice v).incoming = some c → c.tag = tag →
            answers (s.heard.removeIncoming v .aborted) 1 t.filled.length) ∧
          ∀ k, (s.voice v).current = some k → k.cue.tag = tag →
            answers (s.heard.endAtOnce v .aborted) 2 t.filled.length) ∧
  ∀ (s : State) (i : StreamSlotId) (t : OpenStream), s.stream i = some t →
    let before := s.streams.freeBlocks.length
    let after := before + t.filled.length
    s.closeStream i =
      { s with
        streams :=
          { slots := s.streams.slots.set i none
            blocks := (s.closeStream i).streams.blocks
            freeBlocks := s.streams.freeBlocks ++ t.filled }
        reports :=
          if before < 8 ∧ 8 ≤ after then s.reports.offer (.streamCredit after) s.time.tick else s.reports } ∧
    ∀ b : BlockId, (s.closeStream i).streams.blocks[b] = if b ∈ t.filled then none else s.streams.blocks[b]

/-- STARVE_LIMIT and BLOCK_USED_UP (R133, R134, R135, R136): the timer at 2000 ends the cue by UNDERRUN; a used-up block
is freed with credit, and an emptied list of a PLAYING cue ends it when LAST is yes, and starves it otherwise. -/
def Obligations.StreamsStarveAndRunOut : Prop :=
  (∀ (s : State) (i : StreamSlotId) (t : OpenStream), s.inReset = false → s.stream i = some t → t.state = .starved →
    t.starve = some 2000 →
      let u : State :=
        { s with streams := { s.streams with slots := s.streams.slots.set i (some { t with starve := none }) } }
      exec (.starveLimit i) s =
        .next (State.chooseFrame (if s.boundPlaying t then u.enterEnding 6 .underrun else u))) ∧
  ∀ (s : State) (k : Current) (i : StreamSlotId) (t : OpenStream) (b : BlockId) (rest : List BlockId) (d : Block)
    (r : ReadPosition), s.inReset = false → (s.voice 6).current = some k → s.boundSlot k.cue.tag = some i →
    s.stream i = some t → t.state = .playing → t.filled = b :: rest → s.streams.blocks[b] = some d → t.read = some r →
    r.holdCount = 4 - t.rate.val → r.index + 1 = d.data.length →
      let free := s.streams.freeBlocks.length + 1
      let t1 : OpenStream := { t with filled := rest, read := some { index := 0, holdCount := 0 } }
      let u : State :=
        { s with
          streams :=
            { slots := s.streams.slots.set i (some t1)
              blocks := s.streams.blocks.set b none
              freeBlocks := s.streams.freeBlocks ++ [b] }
          reports := if free = 8 then s.reports.offer (.streamCredit 8) s.time.tick else s.reports }
      let starved (timer : Option Nat) : State :=
        State.offer
          { u with
            streams :=
              { u.streams with slots := s.streams.slots.set i (some { t1 with state := .starved, starve := timer }) } }
          (.streamStarved t.id)
      exec .blockUsedUp s =
        .next
          (State.chooseFrame
            (if rest ≠ [] ∨ (s.voice 6).state ≠ .active then u
            else if t.last then u.enterEnding 6 .finished
            else if t.policy = .pause then starved (some 0)
            else (starved none).enterEnding 6 .underrun))

/-- TRIGGER.ARM and TRIGGER.DISARM (R145, R146): the conditions on the template in their order; an arming replaces the
slot whole, and a disarming empties it; the reply says what was armed before. -/
def Obligations.TriggersAreArmedAndDisarmed : Prop :=
  (∀ (s : State) (num : Byte) (f : List Byte), s.Passes .triggerArm num f →
    let answers (slots : Vector (Option Armed) 4) (a : Answer) : Prop :=
      exec (.triggerArm num f) s =
        .next (State.answered { s with triggers := { s.triggers with slots := slots } } .triggerArm num f a)
    let i : TriggerId := Fin.ofNat 4 (u8 f 0).toNat
    (u8 f 7 = 3 → answers s.triggers.slots { status := .badParam, results := [7, 0xFF] }) ∧
    (u8 f 7 ≠ 3 → u8 f 15 = 1 → answers s.triggers.slots { status := .badParam, results := [14, 0xFF] }) ∧
    (u8 f 7 = 0 → u8 f 15 ≠ 1 → (u8 f 24).getLsbD 2 = true →
      answers s.triggers.slots { status := .badParam, results := [20, 0xFF] }) ∧
    (u8 f 7 ≠ 3 → u8 f 15 ≠ 1 → (u8 f 7 ≠ 0 ∨ (u8 f 24).getLsbD 2 = false) →
      answers
        (s.triggers.slots.set i
          (some
            { line := if u8 f 1 = 0 then .trg0 else .trg1
              edge := if u8 f 2 = 0 then .fall else if u8 f 2 = 1 then .rise else .both
              mode := if u8 f 3 = 0 then .once else .repeating
              policy := if u8 f 4 = 0 then .ignore else .restart
              template := { readTemplate (f.drop 5) 0 with duck := false } }))
        (answerOk [byteOf i.val, if s.triggers.slots[i] = none then 0 else 1]))) ∧
  ∀ (s : State) (num : Byte) (f : List Byte), s.Passes .triggerDisarm num f →
    let i : TriggerId := Fin.ofNat 4 (u8 f 1).toNat
    let answers (slots : Vector (Option Armed) 4) (result : Byte) : Prop :=
      exec (.triggerDisarm num f) s =
        .next
          (State.answered { s with triggers := { s.triggers with slots := slots } } .triggerDisarm num f
            (answerOk [result]))
    (u8 f 0 = 0 → answers (s.triggers.slots.set i none) (if s.triggers.slots[i] = none then 0 else 1)) ∧
    (u8 f 0 ≠ 0 →
      answers (Vector.replicate 4 none)
        (byteOf (([0, 1, 2, 3] : List TriggerId).countP fun j => s.triggers.slots[j].isSome)))

/-- FIRING_EVENT (R147 to R151): the edge is taken, and the slots are served in order; a matching slot's template is
accepted, refused BUSY, NOT_READY or SCHEDULE_FULL, or, under RESTART, offered after the end of its live cue, by the table
of R150: an entry and an incoming cue are removed, a cue on a voice is ended at once, each RETRIGGERED (what a cue that is
ENDING keeps instead is in `HandoffsComplete`); a ONCE slot is then disarmed. The due events of the cues accepted follow, in
order of acceptance (R8). -/
def Obligations.FiringServesSlots : Prop :=
  (∀ (s : State) (rising : Bool), s.inReset = false →
    let served (line : TrgLine) (t : State) : State :=
      ([0, 1, 2, 3] : List TriggerId).foldl (State.serveTrigger line rising) t
    let thenDue (t : State) : State :=
      (List.range (t.sched.counter - s.sched.counter).toNat).foldl
        (fun u k => u.dueOwn (s.sched.counter + BitVec.ofNat 32 k)) t
    (s.triggers.trg0.edge = some rising →
      exec (.firingEvent .trg0) s =
        .next
          (State.chooseFrame
            (thenDue
              (served .trg0 { s with triggers := { s.triggers with trg0 := { s.triggers.trg0 with edge := none } } })))) ∧
    (s.triggers.trg1.edge = some rising →
      exec (.firingEvent .trg1) s =
        .next
          (State.chooseFrame
            (thenDue
              (served .trg1 { s with triggers := { s.triggers with trg1 := { s.triggers.trg1 with edge := none } } }))))) ∧
  (∀ (s : State) (n : BitVec 32),
    let takes (e : Entry) : Bool :=
      e.state == .scheduled && e.cue.acceptance == n && decide ((s.time.tick - e.cue.due).toNat < 2 ^ 31)
    let deadline (c : Cue) : Option Tick :=
      if c.window = 0 ∨ c.window = 65535 then none else some (s.time.tick + BitVec.ofNat 32 c.window)
    s.dueOwn n =
      { s with
        sched :=
          { s.sched with
            entries :=
              s.sched.entries.map fun e =>
                if takes e then
                  (if e.cue.quantize = .off then { cue := { e.cue with deadline := deadline e.cue }, state := .waiting }
                  else { e with state := .aligning })
                else e }
        alloc :=
          { s.alloc with
            passes :=
              s.alloc.passes + if s.sched.entries.any fun e => takes e && e.cue.quantize == .off then 1 else 0 } }) ∧
  ∀ (s : State) (line : TrgLine) (rising : Bool) (i : TriggerId),
    (s.triggers.slots[i] = none → s.serveTrigger line rising i = s) ∧
    ∀ a, s.triggers.slots[i] = some a →
      let tag := a.template.tag
      let fires :=
        a.line = line ∧ (a.edge = .both ∨ (a.edge = .fall ∧ rising = false) ∨ (a.edge = .rise ∧ rising = true))
      let served (t : State) : State :=
        if a.mode = .once then
          { t with triggers := { t.triggers with slots := t.triggers.slots.set i none } }
        else t
      let ready (t : State) : Prop := ∀ id, a.template.source = .phrase id → (t.phrase id).state = .ready
      let offered (t u : State) : Prop :=
        (¬ready t → u = t.offer (.triggerRefused i tag .notReady)) ∧
        (ready t → 48 ≤ t.sched.entries.length → u = t.offer (.triggerRefused i tag .scheduleFull)) ∧
        (ready t → t.sched.entries.length < 48 →
          u =
            State.offer
              { t with
                sched :=
                  { entries := insertEntry { cue := t.newCue a.template, state := .scheduled } t.sched.entries
                    live := t.sched.live ++ [tag]
                    counter := t.sched.counter + 1 }
                store :=
                  (match a.template.source with
                    | .phrase id =>
                      { t.store with
                        slots := t.store.slots.set id { t.phrase id with refs := (t.phrase id).refs + 1 } }
                    | _ => t.store) }
              (.triggerFired i tag))
      (¬fires → s.serveTrigger line rising i = s) ∧
      (fires → (∀ id, a.template.source ≠ .stream id) →
        ((∃ id, a.template.source = .phrase id) → a.template.rates = none) →
          (tag ∉ s.sched.live → ∃ u, offered s u ∧ s.serveTrigger line rising i = served u) ∧
          (tag ∈ s.sched.live → a.policy = .ignore →
            s.serveTrigger line rising i = served (s.offer (.triggerRefused i tag .busy))) ∧
          (tag ∈ s.sched.live → a.policy = .restart → s.Placed →
            let restarts (t : State) : Prop := ∃ u, offered t u ∧ s.serveTrigger line rising i = served u
            (∀ e ∈ s.sched.entries, e.cue.tag = tag → restarts (s.removeEntry tag .retriggered)) ∧
            ∀ v,
              (∀ c, (s.voice v).incoming = some c → c.tag = tag → restarts (s.removeIncoming v .retriggered)) ∧
              ∀ k, (s.voice v).current = some k → k.cue.tag = tag → restarts (s.endAtOnce v .retriggered)))

/-! ### Time -/

/-- TICK_ADVANCE: the outstanding events are taken first (log entry 3: the model's choice), and then the counter
advances. With none outstanding, what the advance does to each block, and that it does no more (R37, R71, R74, R100,
R101, R105, R111, R115, R136, R143, R159, R167); a SCHEDULED entry whose due tick it reaches stays for the due event
(R8), which DUE_EVENT or the next advance takes. -/
def Obligations.TickAdvances : Prop :=
  (∀ (s : State) (lines : Lines), s.inReset = false →
    exec (.tickAdvance lines) s = .next (State.chooseFrame ((State.settle 4096 s).advance lines))) ∧
  (∀ (n : Nat) (s : State),
    State.settle (n + 1) s =
      match s.outstanding with
      | some e => State.settle n (s.carry e).chooseFrame
      | none => s) ∧
  ∀ (s : State) (lines : Lines), s.inReset = false → s.outstanding = none →
    let changes (q : Qualifier) (sample : Bool) : Bool := sample != q.level && q.last != q.level
    let taken (q : Qualifier) (sample : Bool) : Qualifier :=
      { level := if changes q sample then sample else q.level, last := sample }
    let edge (q : Qualifier) (sample : Bool) : Option Bool := if changes q sample then some sample else none
    let sync : Prop := edge s.time.syncLine lines.sync = some true ∧ s.time.source = .external
    let m := s.mixer
    let muted : Prop := m.softMute = true ∨ lines.muten = false
    ∃ t : State,
      exec (.tickAdvance lines) s = .next t.chooseFrame ∧
      (sync →
        t.time =
          { s.time with
            tick := s.time.tick + 1, syncLine := taken s.time.syncLine lines.sync, beatAsk := some .sync }) ∧
      (¬sync →
        t.time =
          { s.time with
            tick := s.time.tick + 1
            syncLine := taken s.time.syncLine lines.sync
            interval := s.time.interval + 1
            beatAsk :=
              if s.time.sync ≠ .locked ∧ s.time.effectiveBeat ≤ s.time.interval + 1 then some .internal else none }) ∧
      t.triggers =
        { s.triggers with
          trg0 :=
            { qualifier := taken s.triggers.trg0.qualifier lines.trg0
              edge := edge s.triggers.trg0.qualifier lines.trg0 }
          trg1 :=
            { qualifier := taken s.triggers.trg1.qualifier lines.trg1
              edge := edge s.triggers.trg1.qualifier lines.trg1 } } ∧
      (t.mixer = { m with muten := lines.muten, duckCount := t.mixer.duckCount, masterFactor := t.mixer.masterFactor } ∧
        t.mixer.duckCount = (if m.duckAmount = s.duckTarget then 0 else m.duckCount + 1) ∧
        (muted → t.mixer.masterFactor = m.masterFactor - 1) ∧
        (¬muted →
          t.mixer.masterFactor =
            if m.masterFactor < m.masterVolume then m.masterFactor + 1
            else if m.masterVolume < m.masterFactor then m.masterFactor - 1
            else m.masterFactor)) ∧
      (∀ v,
        let r := s.voice v
        t.voice v =
          if r.current = none then r
          else
            { r with
              env :=
                (match r.env.phase with
                  | .attack => { r.env with rateCount := r.env.rateCount + 1 }
                  | .release =>
                    if r.releaseMode = some .fast then { r.env with level := r.env.level - 4 }
                    else { r.env with rateCount := r.env.rateCount + 1 }
                  | .hold => r.env
                  | .silent => r.env)
              player :=
                if r.state = .active then
                  r.player.map fun p =>
                    { p with stepTicks := p.stepTicks.map (· - 1), gateTicks := p.gateTicks.map (· - 1) }
                else r.player }) ∧
      (∀ i, t.stream i = (s.stream i).map fun x => { x with starve := x.starve.map (· + 1) }) ∧
      t.streams = { s.streams with slots := t.streams.slots } ∧
      t.link =
        { s.link with
          receiver :=
            if s.link.receiver.held = [] then s.link.receiver
            else { s.link.receiver with gap := s.link.receiver.gap + 1 }
          silenceCount :=
            if s.link.session = .opened ∧ s.link.silenceTimeout ≠ 0 then s.link.silenceCount + 1
            else s.link.silenceCount } ∧
      t.sched = s.sched ∧
      t.alloc.passes = s.alloc.passes ∧ t.store = s.store ∧ t.pitchMap = s.pitchMap ∧ t.reports = s.reports ∧
      t.inReset = s.inReset ∧ t.straps = s.straps ∧ t.pending = s.pending

/-- INTERNAL_BEAT_EDGE, SYNC_EDGE and SYNC_LOSS (R108 to R111, R117, R118): the effective length, the position and the
sync state after each; an edge releases the ALIGNING entries it matches (R9, R10) and offers BEAT, a loss offers
SYNC_LOST. -/
def Obligations.BeatEdgesAreTaken : Prop :=
  (∀ s : State, s.inReset = false →
    let t := s.time
    let restart : Bool := t.barRestart || decide (t.configuredBar ≤ t.beatInBar)
    let moved (u : TimeBase) : TimeBase :=
      { u with
        barInForce := t.configuredBar
        barRestart := false
        beatInBar := if restart then 1 else t.beatInBar + 1
        barNumber := if restart then t.barNumber + 1 else t.barNumber
        lastBeat := some t.tick
        interval := 0
        beatAsk := none }
    let releases (u : TimeBase) (e : Entry) : Bool :=
      e.state == .aligning && (e.cue.quantize != .bar || u.beatInBar == 1)
    let deadline (c : Cue) : Option Tick :=
      if c.window = 0 ∨ c.window = 65535 then none else some (t.tick + BitVec.ofNat 32 c.window)
    let delivered (u : TimeBase) (reports : ReportUnit) : State :=
      { s with
        time := u
        sched :=
          { s.sched with
            entries :=
              s.sched.entries.map fun e =>
                if releases u e then { cue := { e.cue with deadline := deadline e.cue }, state := .waiting } else e }
        alloc := { s.alloc with passes := s.alloc.passes + if s.sched.entries.any (releases u) then 1 else 0 }
        reports := reports.offer (.beat u.beatInBar u.barNumber) t.tick }
    (t.beatAsk = some .internal →
      exec .internalBeatEdge s =
        .next
          (State.chooseFrame
            (delivered
              (moved
                { t with
                  effectiveBeat := if t.lengthPending then t.configuredBeat else t.effectiveBeat
                  lengthPending := false })
              s.reports))) ∧
    (t.beatAsk = some .sync →
      exec .syncEdge s =
        .next
          (State.chooseFrame
            (delivered
              (moved
                { t with
                  effectiveBeat :=
                    (match t.previousSync with
                      | some p => max 20 (min 5000 (t.tick - p).toNat)
                      | none => t.configuredBeat)
                  lengthPending := false
                  previousSync := some t.tick
                  lossReference := some t.tick
                  sync := .locked })
              (if t.sync = .fallback then s.reports.offer .syncRegained t.tick else s.reports))))) ∧
  ∀ (s : State) (r : Tick), s.inReset = false → (s.time.sync = .seeking ∨ s.time.sync = .locked) →
    s.time.beatAsk = none → s.time.lossReference = some r → 4 * s.time.effectiveBeat ≤ (s.time.tick - r).toNat →
      exec .syncLoss s =
        .next
          (State.chooseFrame
            { s with
              time :=
                { s.time with
                  sync := .fallback
                  lossReference := none
                  previousSync := none
                  interval := if s.time.sync = .locked then 0 else s.time.interval }
              reports := s.reports.offer (.syncLost r) s.time.tick })

/-! ### Voices -/

/-- ALLOCATION_PASS (R31): each WAITING entry is served once, by priority, highest first, and among equals by schedule
position, in the order fixed when the pass is taken. -/
def Obligations.PassesServeInOrder : Prop :=
  ∀ s : State, s.inReset = false → 0 < s.alloc.passes →
    ∃ order : List Entry,
      order.Perm (s.sched.entries.filter fun e => e.state == .waiting) ∧
      order.Pairwise (fun a b => b.cue.priority ≤ a.cue.priority) ∧
      (∀ p, order.filter (fun e => e.cue.priority == p) =
        s.sched.entries.filter fun e => e.state == .waiting && e.cue.priority == p) ∧
      exec .allocationPass s =
        .next
          (State.chooseFrame
            ((order.map fun e => e.cue.tag).foldl State.serveTag
              { s with alloc := { s.alloc with passes := s.alloc.passes - 1 } }))

/-- The service of one WAITING cue (R32 to R36): a STREAM cue whose stream is not READY is skipped; the lowest IDLE
voice of the class takes the cue; without one the best candidate is stolen; without that, a cue of window 0 is
removed and another stays. A steal takes the victim's outstanding rate count step first (log entry 19), and freezes a
stolen stream: its starve timer becomes absent (R137). What the record of voice 6 carries with it in the mixer is in
`LevelsMove`. -/
def Obligations.PassesPlaceStealOrLeave : Prop :=
  ∀ (s : State) (l1 l2 : List Entry) (e : Entry), s.sched.entries = l1 ++ e :: l2 →
    (∀ x ∈ l1 ++ l2, x.cue.tag ≠ e.cue.tag) → e.state = .waiting →
    let c := e.cue
    let left : State := { s with sched := { s.sched with entries := l1 ++ l2 } }
    let skipped : Prop :=
      ∃ id, c.source = .stream id ∧ ∀ i t, s.boundSlot c.tag = some i → s.stream i = some t → t.state ≠ .ready
    let ofClass (v : VoiceId) : Prop :=
      match c.source with
      | .stream _ => v.val = 6
      | _ => v.val < 6
    let lower (v : VoiceId) (k : Current) : Prop :=
      ofClass v ∧ (s.voice v).state = .active ∧ (s.voice v).current = some k ∧ k.cue.priority < c.priority
    (skipped → s.serveTag c.tag = s) ∧
    (¬skipped →
      (∀ v, ofClass v → (s.voice v).state = .idle → (∀ u, ofClass u → u < v → (s.voice u).state ≠ .idle) →
        s.serveTag c.tag = left.startCue v { c with deadline := none }) ∧
      ((∀ v, ofClass v → (s.voice v).state ≠ .idle) →
        (∀ v k, lower v k →
          (∀ u j, lower u j → u ≠ v →
            k.cue.priority < j.cue.priority ∨
              (k.cue.priority = j.cue.priority ∧
                (earlier k.startTick j.startTick = true ∨ (k.startTick = j.startTick ∧ v < u)))) →
              s.serveTag c.tag =
                { left.putVoice v
                    { (s.voice v).rateStep with
                      state := .handoff
                      releaseMode := some .fast
                      current := some { k with cue := { k.cue with endReason := some .stolen } }
                      incoming := some { c with deadline := none }
                      env := { (s.voice v).rateStep.env with phase := .release, rateCount := 0 } } with
                  streams :=
                    (match v.val, s.boundSlot k.cue.tag with
                      | 6, some i =>
                        { s.streams with
                          slots := s.streams.slots.set i ((s.stream i).map fun x => { x with starve := none }) }
                      | _, _ => s.streams) }) ∧
        ((∀ v k, ¬lower v k) →
          s.serveTag c.tag = if c.window = 0 then s.removeEntry c.tag .noVoice else s)))

/-- HANDOFF_COMPLETE (R38), and the immediate end of a current cue (R40, R43): the departing cue ends by R42, and the
incoming one starts; an immediate end gives a PLAYING cue the reason of the event, a cut normal release CUT, and
leaves any other its own. What the record of voice 6 carries with it in the mixer is in `LevelsMove`. -/
def Obligations.HandoffsComplete : Prop :=
  (∀ (s : State) (v : VoiceId) (c : Cue), s.inReset = false → (s.voice v).state = .handoff → (s.voice v).env.level = 0 →
    (s.voice v).incoming = some c →
      exec (.handoffComplete v) s = .next (State.chooseFrame ((s.endCurrent v).startCue v c))) ∧
  ∀ (s : State) (v : VoiceId) (k : Current) (reason : EndReason), (s.voice v).current = some k →
    let own :=
      (s.voice v).state = .active ∨
        ((s.voice v).state = .ending ∧ (s.voice v).releaseMode = some .normal ∧ reason = .cut)
    let ended : State :=
      s.putVoice v
        { s.voice v with
          env := { (s.voice v).env with level := 0 }
          current := some (if own then { k with cue := { k.cue with endReason := some reason } } else k) }
    ((s.voice v).incoming = none →
      s.endAtOnce v reason = ((ended.endCurrent v).putVoice v Voice.idle).askPass) ∧
    ∀ c, (s.voice v).incoming = some c → s.endAtOnce v reason = (ended.endCurrent v).startCue v c

/-- A cue becomes PLAYING (R33, R45, R75, R86, R94, R98): CUE_STARTED is offered, the envelope starts from level 0 and
the oscillator afresh; a TONE or NOISE cue starts its one note, a PHRASE cue a run, a STREAM cue its stream; an
exclusive cue ends the PLAYING cues of its group on other voices. What the record of voice 6 carries with it in the
mixer is in `LevelsMove`. -/
def Obligations.CuesStart : Prop :=
  (∀ (s : State) (v : VoiceId) (c : Cue) (note : Note) (d : Nat) (shape : Shape) (rates : Rates), v ≠ 6 →
    (c.source = .tone note d shape ∨ (c.source = .noise note d ∧ shape = .noise)) → c.rates = some rates →
      let p := s.pitchMap[note]
      let level := if c.volume = 0 ∨ rates.attack = 0 then c.volume else 0
      let started : Voice :=
        { state := .active
          current := some { cue := c, startTick := s.time.tick }
          releaseMode := none
          incoming := none
          env :=
            if p = 0 then { phase := .silent, level := 0, target := 0, rateCount := 0 }
            else
              { phase := if level = c.volume then .hold else .attack, level := level, target := c.volume, rateCount := 0 }
          player :=
            some
              { top := none, call := none, stepTicks := some d
                gateTicks := if p = 0 then none else some (max 1 d)
                stepVolume := if p = 0 then none else some 15
                repeatsLeft := 1, shape := shape, period := p, legato := decide (p ≠ 0), rates := rates }
          osc := some { phaseCount := 0, noise := BitVec.allOnes 15, clocks := 0 } }
      s.startCue v c =
        State.choke
          { s with
            alloc := { s.alloc with voices := s.alloc.voices.set v started }
            reports := s.reports.offer (.cueStarted c.tag v) s.time.tick }
          v c) ∧
  (∀ (s : State) (v : VoiceId) (c : Cue) (id : PhraseId), v ≠ 6 → c.source = .phrase id →
    let h := (s.phrase id).theHeader
    let started : Voice :=
      { state := .active
        current := some { cue := c, startTick := s.time.tick }
        releaseMode := none
        incoming := none
        env := { phase := .silent, level := 0, target := 0, rateCount := 0 }
        player :=
          some
            { top := some { phrase := id, step := 0, nestedFault := false }, call := none, stepTicks := none
              gateTicks := none, stepVolume := none, repeatsLeft := c.repeats, shape := h.shape, period := 0
              legato := false, rates := h.rates }
        osc := some { phaseCount := 0, noise := BitVec.allOnes 15, clocks := 0 } }
    s.startCue v c =
      State.choke
        (State.run 1280 v
          { s with
            alloc := { s.alloc with voices := s.alloc.voices.set v started }
            reports := s.reports.offer (.cueStarted c.tag v) s.time.tick })
        v c) ∧
  (∀ (s : State) (c : Cue) (id : Byte) (i : StreamSlotId) (t : OpenStream), c.source = .stream id →
    s.boundSlot c.tag = some i → s.stream i = some t →
      let started : State :=
        State.putStream
          ((s.putVoice 6
              { state := .active, current := some { cue := c, startTick := s.time.tick }, releaseMode := none
                incoming := none, env := { phase := .hold, level := c.volume, target := c.volume, rateCount := 0 }
                player := none, osc := none }).offer
            (.cueStarted c.tag 6))
          i (some { t with state := .playing, read := some { index := 0, holdCount := 0 } })
      s.startCue 6 c =
        State.choke (if t.filled = [] then started.enterEnding 6 .finished else started) 6 c) ∧
  ∀ (s : State) (v : VoiceId) (c : Cue),
    (c.exclusive = false ∨ c.group = 0 → s.choke v c = s) ∧
    (c.exclusive = true → c.group ≠ 0 →
      ∀ u : VoiceId,
        (s.choke v c).voice u =
          if u ≠ v ∧ (s.voice u).state = .active ∧ ((s.voice u).current.any fun k => k.cue.group == c.group) = true then
            (s.enterEnding u .choked).voice u
          else s.voice u)

/-- A NOTE or a REST starts (R76, R77, R79): the period latched, the ticks by the header and the effective beat length,
the gate, and the envelope's movement; a NOTE whose map entry is 0 is a REST, and a REST takes both rates of its header
(log entry 15). -/
def Obligations.TimedStepsStart : Prop :=
  ∀ (s : State) (v : VoiceId) (p : Player) (c : Cue) (h : Header) (d : Nat),
    let e := (s.voice v).env
    let ticks := if h.tempoRelative then max 1 (d * s.time.effectiveBeat / 48) else d
    let rest : State :=
      s.putVoice v
        { s.voice v with
          player :=
            some
              { p with stepTicks := some ticks, gateTicks := none, stepVolume := none, legato := false, rates := h.rates }
          env :=
            if e.level = 0 ∨ h.rates.release = 0 then { e with phase := .silent, level := 0, rateCount := 0 }
            else { e with phase := .release, rateCount := 0 } }
    s.startRest v p h d = rest ∧
    ∀ (note : Note) (volume gate : Nat),
      let period := s.pitchMap[note]
      let target := volume * c.volume / 15
      let level := if p.legato then e.level else 0
      let rate := if level < target then h.rates.attack else h.rates.release
      (period = 0 → s.startNote v p c h note d volume gate = rest) ∧
      (period ≠ 0 →
        s.startNote v p c h note d volume gate =
          s.putVoice v
            { s.voice v with
              player :=
                some
                  { p with
                    period := period
                    stepTicks := some ticks
                    gateTicks := some (max 1 (ticks * gate / 8))
                    stepVolume := some volume
                    legato := decide (gate = 8)
                    rates := h.rates }
              env :=
                if level = target ∨ rate = 0 then { phase := .hold, level := target, target := target, rateCount := 0 }
                else { phase := .attack, level := level, target := target, rateCount := 0 } })

/-- STEP_END, and the items of the run it begins (R73, R78, R80 to R86): the end of a TONE or NOISE; NOTE, REST, SHAPE,
MARK, CALL to a READY phrase, to another and inside a call, the return, and the end of a pass with 0, 1 or more repeats
left; at the end of the last, the top step index stays at the last step (log entry 29: the model's choice). STEP_END
takes the voice's outstanding rate count step first, in the order of R74 (log entry 19). -/
def Obligations.StepsRun : Prop :=
  (∀ (s : State) (v : VoiceId) (p : Player), s.inReset = false → (s.voice v).state = .active →
    (s.voice v).player = some p → p.stepTicks = some 0 →
      exec (.stepEnd v) s =
        .next
          (State.chooseFrame
            (State.run 1280 v
              (s.putVoice v
                { (s.voice v).rateStep with
                  player := some { p with stepTicks := none, gateTicks := none, stepVolume := none }.nextStep })))) ∧
  (∀ (n : Nat) (s : State) (v : VoiceId),
    State.run (n + 1) v s = if (s.runOne v).2 then State.run n v (s.runOne v).1 else (s.runOne v).1) ∧
  (∀ (s : State) (v : VoiceId) (k : Current) (p : Player), (s.voice v).state = .active → (s.voice v).current = some k →
    (s.voice v).player = some p → p.call = none → p.top = none → s.runOne v = (s.enterEnding v .finished, false)) ∧
  ∀ (s : State) (v : VoiceId) (k : Current) (p : Player) (top : TopPosition), (s.voice v).state = .active →
    (s.voice v).current = some k → (s.voice v).player = some p → p.top = some top →
    let go (t : State) (q : Player) : State × Bool := (t.putVoice v { s.voice v with player := some q }, true)
    let next : Player :=
      match p.call with
      | some call => { p with call := some { call with step := call.step + 1 } }
      | none => { p with top := some { top with step := top.step + 1 } }
    let phrase := (p.call.map fun call => call.phrase).getD top.phrase
    let index := (p.call.map fun call => call.step).getD top.step
    let slot := s.phrase phrase
    let step : Option Step := if index < slot.stepCount then s.store.stepAt slot index else none
    (∀ note d volume gate, step = some (.note note d volume gate) →
      s.runOne v = (s.startNote v p k.cue slot.theHeader note d volume gate, false)) ∧
    (∀ d, step = some (.rest d) → s.runOne v = (s.startRest v p slot.theHeader d, false)) ∧
    (∀ shape, step = some (.shape shape) → s.runOne v = go s { next with shape := shape }) ∧
    (∀ value, step = some (.mark value) → s.runOne v = go (s.offer (.mark k.cue.tag value)) next) ∧
    (∀ target, step = some (.call target) →
      (p.call = none → (s.phrase target).state = .ready →
        s.runOne v =
          go
            { s with
              store :=
                { s.store with
                  slots := s.store.slots.set target { s.phrase target with refs := (s.phrase target).refs + 1 } } }
            { p with
              call := some { phrase := target, step := 0, savedShape := p.shape }
              shape := (s.phrase target).theHeader.shape }) ∧
      (p.call = none → (s.phrase target).state ≠ .ready →
        s.runOne v = go (s.offer (.phraseFault k.cue.tag top.phrase top.step .absent)) next) ∧
      ∀ call, p.call = some call →
        s.runOne v =
          if top.nestedFault then go s next
          else
            go (s.offer (.phraseFault k.cue.tag call.phrase call.step .nested))
              { next with top := some { top with nestedFault := true } }) ∧
    (step = none →
      (∀ call, p.call = some call →
        s.runOne v =
          go
            { s with
              store :=
                { s.store with
                  slots :=
                    s.store.slots.set call.phrase
                      { s.phrase call.phrase with refs := (s.phrase call.phrase).refs - 1 } } }
            { p with call := none, shape := call.savedShape, top := some { top with step := top.step + 1 } }) ∧
      (p.call = none →
        let again (left : Nat) : State × Bool :=
          go s
            { p with
              top := some { top with step := 0, nestedFault := false }, shape := slot.theHeader.shape, repeatsLeft := left }
        (p.repeatsLeft = 0 → s.runOne v = again 0) ∧
        (p.repeatsLeft = 1 →
          s.runOne v =
            ((s.putVoice v
                { s.voice v with player := some { p with top := some { top with step := top.step - 1 } } }).enterEnding v
              .finished, false)) ∧
        (2 ≤ p.repeatsLeft → s.runOne v = again (p.repeatsLeft - 1))))

/-- RATE_COUNT_STEP, GATE_RUNS_OUT and DUCK_STEP (R71, R78, R98, R100): a level moves by 1 when its rate count reaches
the rate, and the phase follows at the target and at 0; in a phase that counts none nothing happens (log entry 2: the
model's choice); a gate releases the note, the voice's outstanding rate count step taken first, in the order of R74 (log
entry 19); the duck amount moves by 1 at a count of 8. A voice record written by a start, an end, a steal or a change of
the cue is the record alone, and on voice 6, where the duck target changes with it, the duck count is set to 0 too
(R100), an outstanding duck step being taken first, toward the target before (log entry 19). -/
def Obligations.LevelsMove : Prop :=
  (∀ (s : State) (v : VoiceId) (k : Current), s.inReset = false → (s.voice v).current = some k →
    let r := s.voice v
    let e := r.env
    let rates : Rates :=
      match r.player with
      | some p => p.rates
      | none => { attack := 0, release := 1 }
    let moves (phase : Phase) (level : Nat) : Prop :=
      r.rateStep = { r with env := { e with phase := phase, level := level, rateCount := 0 } } ∧
        exec (.rateCountStep v) s = .next (State.chooseFrame (s.putVoice v r.rateStep))
    (e.phase = .attack → e.level < e.target → e.rateCount = rates.attack →
      moves (if e.level + 1 = e.target then .hold else .attack) (e.level + 1)) ∧
    (e.phase = .attack → e.target < e.level → e.rateCount = rates.release →
      moves (if e.level - 1 = e.target then .hold else .attack) (e.level - 1)) ∧
    (e.phase = .release → r.releaseMode ≠ some .fast → 0 < e.level → e.rateCount = rates.release →
      moves (if e.level = 1 ∧ r.state ≠ .ending then .silent else .release) (e.level - 1)) ∧
    (e.phase = .hold ∨ e.phase = .silent ∨ (e.phase = .release ∧ r.releaseMode = some .fast) →
      r.rateStep = r ∧ exec (.rateCountStep v) s = .next s.chooseFrame) ∧
    ((e.phase = .attack ∧ e.level < e.target ∧ e.rateCount ≠ rates.attack) ∨
        (e.phase = .attack ∧ e.target < e.level ∧ e.rateCount ≠ rates.release) ∨
        (e.phase = .release ∧ r.releaseMode ≠ some .fast ∧ e.rateCount ≠ rates.release) →
      r.rateStep = r)) ∧
  (∀ (s : State) (v : VoiceId) (p : Player) (n : Nat), s.inReset = false → (s.voice v).state = .active →
    (s.voice v).player = some p → p.gateTicks = some 0 → p.stepTicks = some n → 0 < n →
      let r := (s.voice v).rateStep
      let e := r.env
      exec (.gateRunsOut v) s =
        .next
          (State.chooseFrame
            (s.putVoice v
              { r with
                player := some { p with gateTicks := none }
                env :=
                  if e.level = 0 ∨ p.rates.release = 0 then { e with phase := .silent, level := 0, rateCount := 0 }
                  else { e with phase := .release, rateCount := 0 } }))) ∧
  ∀ s : State,
    let m := s.mixer
    let target (r : Voice) : Nat :=
      match r.state, r.current with
      | .active, some k => if k.cue.duck then m.duckDepth else 0
      | _, _ => 0
    let moved : Mixer :=
      { m with
        duckAmount :=
          if m.duckAmount < target (s.voice 6) then m.duckAmount + 1
          else if target (s.voice 6) < m.duckAmount then m.duckAmount - 1
          else m.duckAmount
        duckCount := 0 }
    (s.inReset = false → s.mixer.duckCount = 8 →
      exec .duckStep s = .next (State.chooseFrame { s with mixer := moved })) ∧
    ∀ (v : VoiceId) (r : Voice),
      s.putVoice v r =
        { s with
          alloc := { s.alloc with voices := s.alloc.voices.set v r }
          mixer :=
            if v ≠ 6 ∨ target r = target (s.voice 6) then m
            else if m.duckCount = 8 then moved
            else { m with duckCount := 0 } }

/-! ### Sound -/

/-- One voice clock, the shift of the noise register, and NOISE_SHIFT (R94, R96): the phase count runs to twice the
period, the register shifts at the period and at 0, and a register that is not all zeros never becomes so. NOISE_SHIFT
runs the voice's clocks to its next shift within the 64 of the output sample, and the sample then runs the rest (log
entry 6: the model's choice). -/
def Obligations.OscillatorsRun : Prop :=
  (∀ (period : Nat) (o : Oscillator),
    let count := if 2 * period ≤ o.phaseCount + 1 then 0 else o.phaseCount + 1
    Oscillator.clock period o =
      if period = 0 then o
      else
        { o with
          phaseCount := count
          noise := if count = period ∨ count = 0 then noiseShiftReg o.noise else o.noise }) ∧
  (∀ r : BitVec 15,
    (noiseShiftReg r).getLsbD 0 = (r.getLsbD 14 != r.getLsbD 13) ∧
      (∀ k, k < 14 → (noiseShiftReg r).getLsbD (k + 1) = r.getLsbD k) ∧ (r ≠ 0 → noiseShiftReg r ≠ 0)) ∧
  (∀ (period n : Nat) (o : Oscillator), o.noise ≠ 0 → (Oscillator.runClocks period n o).noise ≠ 0) ∧
  ∀ (s : State) (v : VoiceId) (p : Player) (o : Oscillator) (n : Nat), s.inReset = false → v ≠ 6 →
    (s.voice v).player = some p → (s.voice v).osc = some o → p.period ≠ 0 →
    0 < n → o.clocks + n ≤ 64 →
    (let last := Oscillator.runClocks p.period n o
     last.phaseCount = p.period ∨ last.phaseCount = 0) →
    (∀ j, 0 < j → j < n →
      let mid := Oscillator.runClocks p.period j o
      mid.phaseCount ≠ p.period ∧ mid.phaseCount ≠ 0) →
      exec (.noiseShift v) s =
        .next
          (State.chooseFrame
            { s with
              alloc :=
                { s.alloc with
                  voices :=
                    s.alloc.voices.set v
                      { s.voice v with
                        osc := some { Oscillator.runClocks p.period n o with clocks := o.clocks + n } } } })

/-- OUTPUT_SAMPLE (R95, R97, R98, R99, R103, R132), a used-up block being finished first (log entry 3: the model's
choice): the contributions after what is left of the sample's 64 voice clocks (log entry 6), their sum scaled by M and
clipped, the pins' drive in the output mode in force at this sample (log entry 23), and the stream's read position. -/
def Obligations.OutputSamplesMix : Prop :=
  ∀ s0 : State, s0.inReset = false →
    let s := s0.finishBlock
    let run (r : Voice) (p : Player) (o : Oscillator) : Oscillator := Oscillator.runClocks p.period (64 - o.clocks) o
    let high (p : Player) (o : Oscillator) : Prop :=
      match p.shape with
      | .square => o.phaseCount < p.period
      | .pulse25 => o.phaseCount < p.period / 2
      | .pulse12 => o.phaseCount < p.period / 4
      | .noise => o.noise.getLsbD 0 = true
    ∃ (t : State) (sample : Nat) (contribution : VoiceId → Int),
      exec .outputSample s0 = .next t.chooseFrame ∧
      (∀ v, v ≠ 6 → (s.voice v).state = .idle → contribution v = 0) ∧
      (∀ v p o, v ≠ 6 → (s.voice v).state ≠ .idle → (s.voice v).player = some p → (s.voice v).osc = some o →
        let e : Int := ((s.voice v).env.level - s.mixer.duckAmount : Nat)
        (p.period = 0 → contribution v = 0) ∧
        (p.period ≠ 0 → high p (run (s.voice v) p o) → contribution v = 8 * e) ∧
        (p.period ≠ 0 → ¬high p (run (s.voice v) p o) → contribution v = -(8 * e)) ∧
        t.voice v = { s.voice v with osc := some { run (s.voice v) p o with clocks := 0 } }) ∧
      contribution 6 =
        (if (s.voice 6).state = .idle then 0
        else (((sample : Int) - 128) * ((s.voice 6).env.level : Int)).tdiv 15) ∧
      ((s.playingSlot = none → sample = 128 ∧ t.streams = s.streams) ∧
        ∀ i x, s.playingSlot = some i → s.stream i = some x →
          (x.state ≠ .playing ∨ x.filled = [] → sample = 128 ∧ t.streams = s.streams) ∧
          ∀ r b rest d, x.state = .playing → x.read = some r → x.filled = b :: rest → s.streams.blocks[b] = some d →
            let now : ReadPosition :=
              if r.holdCount = 4 - x.rate.val then { index := r.index + 1, holdCount := 0 } else r
            sample = (d.data.getD now.index 128#8).toNat ∧
              t.streams =
                { s.streams with
                  slots :=
                    s.streams.slots.set i
                      (some { x with read := some { now with holdCount := now.holdCount + 1 } }) }) ∧
      (let scaled :=
        ((contribution 0 + contribution 1 + contribution 2 + contribution 3 + contribution 4 + contribution 5 +
              contribution 6) *
            (s.mixer.masterFactor : Int)).tdiv
          31
       let value := max (-512) (min 511 scaled)
       t.mixer =
        { s.mixer with
          value := value
          pwm :=
            (match s.mixer.outputMode with
              | .bridge => { pHigh := (value + 512).toNat, nHigh := 1024 - (value + 512).toNat }
              | .single => { pHigh := (value + 512).toNat, nHigh := 0 }) }) ∧
      t.sched = s.sched ∧ t.store = s.store ∧ t.pitchMap = s.pitchMap ∧ t.time = s.time ∧ t.triggers = s.triggers ∧
      t.reports = s.reports ∧ t.link = s.link ∧ t.alloc.passes = s.alloc.passes ∧ t.pending = s.pending

/-! ### What every step keeps -/

/-- Every page is free or in one phrase's list, once, and a BUILDING slot is the build context's (R49, R53 to R55),
after every step. -/
def Obligations.StepsKeepPages : Prop :=
  ∀ s t : State, s.store.Ok → step s = .next t → t.store.Ok

/-- Every sample block is free or in one open stream's list, once; a free one holds no data, a filled one 1 to 128
bytes; no two slots hold one stream id (R123, R124), after every step. -/
def Obligations.StepsKeepBlocks : Prop :=
  ∀ s t : State, s.streams.Ok → step s = .next t → t.streams.Ok

/-- The report queue stays numbered without a gap, at most 32 long with an unsent REPORTS_LOST behind 31, and at most
its 4 oldest in flight (R173, R176, R177, R179), after every step. -/
def Obligations.StepsKeepReportOrder : Prop :=
  ∀ s t : State, s.reports.Ok → step s = .next t → t.reports.Ok

/-- After every step the pitch map entries are 0 or 32 to 65535 (R89); the beat lengths, the beats per bar and the beat
position lie in their ranges, with the sync state, the source and the reference ticks in agreement (R107); the mixer's
volume, factor, duck depth and amount, and output value lie in theirs (R99 to R101); and the link's cache, pending
replies and two counts keep their bounds (R160 to R163). The interval count and the duck count are not bounded here. -/
def Obligations.StepsKeepRanges : Prop :=
  ∀ s t : State, s.Sound → step s = .next t → mapOk t.pitchMap ∧ t.time.Ok ∧ t.mixer.Ok ∧ t.link.Ok

/-- A cue is held in one place, on a voice of its class, in the state its voice gives it; the live-tag set is the tags
held; a phrase's reference count is the number of cues and calls that hold it (R3 to R5, R28, R29, R63); and the schedule
holds at most 48 entries (R5), after every step. -/
def Obligations.StepsKeepCuesPlaced : Prop :=
  ∀ s t : State, s.Placed → s.sched.entries.length ≤ 48 → step s = .next t →
    t.Placed ∧ t.sched.entries.length ≤ 48
end

