-- ==== Sys2Proof/Laws/State.lean ====
section
/-! SUPPORT. What each update of the state leaves alone, one lemma for each field, and what it writes. -/

namespace Sys2Proof.Machine

/-! ### offer -/
@[simp] theorem State.offer_inReset (s : State) (k : ReportKind) : (s.offer k).inReset = s.inReset := rfl
@[simp] theorem State.offer_straps (s : State) (k : ReportKind) : (s.offer k).straps = s.straps := rfl
@[simp] theorem State.offer_sched (s : State) (k : ReportKind) : (s.offer k).sched = s.sched := rfl
@[simp] theorem State.offer_alloc (s : State) (k : ReportKind) : (s.offer k).alloc = s.alloc := rfl
@[simp] theorem State.offer_store (s : State) (k : ReportKind) : (s.offer k).store = s.store := rfl
@[simp] theorem State.offer_pitchMap (s : State) (k : ReportKind) : (s.offer k).pitchMap = s.pitchMap := rfl
@[simp] theorem State.offer_mixer (s : State) (k : ReportKind) : (s.offer k).mixer = s.mixer := rfl
@[simp] theorem State.offer_time (s : State) (k : ReportKind) : (s.offer k).time = s.time := rfl
@[simp] theorem State.offer_streams (s : State) (k : ReportKind) : (s.offer k).streams = s.streams := rfl
@[simp] theorem State.offer_triggers (s : State) (k : ReportKind) : (s.offer k).triggers = s.triggers := rfl
@[simp] theorem State.offer_link (s : State) (k : ReportKind) : (s.offer k).link = s.link := rfl
@[simp] theorem State.offer_pending (s : State) (k : ReportKind) : (s.offer k).pending = s.pending := rfl

/-! ### askPass -/
@[simp] theorem State.askPass_inReset (s : State) : (s.askPass).inReset = s.inReset := rfl
@[simp] theorem State.askPass_straps (s : State) : (s.askPass).straps = s.straps := rfl
@[simp] theorem State.askPass_sched (s : State) : (s.askPass).sched = s.sched := rfl
@[simp] theorem State.askPass_store (s : State) : (s.askPass).store = s.store := rfl
@[simp] theorem State.askPass_pitchMap (s : State) : (s.askPass).pitchMap = s.pitchMap := rfl
@[simp] theorem State.askPass_mixer (s : State) : (s.askPass).mixer = s.mixer := rfl
@[simp] theorem State.askPass_time (s : State) : (s.askPass).time = s.time := rfl
@[simp] theorem State.askPass_streams (s : State) : (s.askPass).streams = s.streams := rfl
@[simp] theorem State.askPass_triggers (s : State) : (s.askPass).triggers = s.triggers := rfl
@[simp] theorem State.askPass_reports (s : State) : (s.askPass).reports = s.reports := rfl
@[simp] theorem State.askPass_link (s : State) : (s.askPass).link = s.link := rfl
@[simp] theorem State.askPass_pending (s : State) : (s.askPass).pending = s.pending := rfl

/-! ### followDuck -/
@[simp] theorem State.followDuck_inReset (s : State) (old : State) : (old.followDuck s).inReset = s.inReset := by unfold State.followDuck; split_ifs <;> rfl
@[simp] theorem State.followDuck_straps (s : State) (old : State) : (old.followDuck s).straps = s.straps := by unfold State.followDuck; split_ifs <;> rfl
@[simp] theorem State.followDuck_sched (s : State) (old : State) : (old.followDuck s).sched = s.sched := by unfold State.followDuck; split_ifs <;> rfl
@[simp] theorem State.followDuck_alloc (s : State) (old : State) : (old.followDuck s).alloc = s.alloc := by unfold State.followDuck; split_ifs <;> rfl
@[simp] theorem State.followDuck_store (s : State) (old : State) : (old.followDuck s).store = s.store := by unfold State.followDuck; split_ifs <;> rfl
@[simp] theorem State.followDuck_pitchMap (s : State) (old : State) : (old.followDuck s).pitchMap = s.pitchMap := by unfold State.followDuck; split_ifs <;> rfl
@[simp] theorem State.followDuck_time (s : State) (old : State) : (old.followDuck s).time = s.time := by unfold State.followDuck; split_ifs <;> rfl
@[simp] theorem State.followDuck_streams (s : State) (old : State) : (old.followDuck s).streams = s.streams := by unfold State.followDuck; split_ifs <;> rfl
@[simp] theorem State.followDuck_triggers (s : State) (old : State) : (old.followDuck s).triggers = s.triggers := by unfold State.followDuck; split_ifs <;> rfl
@[simp] theorem State.followDuck_reports (s : State) (old : State) : (old.followDuck s).reports = s.reports := by unfold State.followDuck; split_ifs <;> rfl
@[simp] theorem State.followDuck_link (s : State) (old : State) : (old.followDuck s).link = s.link := by unfold State.followDuck; split_ifs <;> rfl
@[simp] theorem State.followDuck_pending (s : State) (old : State) : (old.followDuck s).pending = s.pending := by unfold State.followDuck; split_ifs <;> rfl

/-! ### putVoice -/
@[simp] theorem State.putVoice_inReset (s : State) (v : VoiceId) (r : Voice) : (s.putVoice v r).inReset = s.inReset := by simp [State.putVoice]
@[simp] theorem State.putVoice_straps (s : State) (v : VoiceId) (r : Voice) : (s.putVoice v r).straps = s.straps := by simp [State.putVoice]
@[simp] theorem State.putVoice_sched (s : State) (v : VoiceId) (r : Voice) : (s.putVoice v r).sched = s.sched := by simp [State.putVoice]
@[simp] theorem State.putVoice_store (s : State) (v : VoiceId) (r : Voice) : (s.putVoice v r).store = s.store := by simp [State.putVoice]
@[simp] theorem State.putVoice_pitchMap (s : State) (v : VoiceId) (r : Voice) : (s.putVoice v r).pitchMap = s.pitchMap := by simp [State.putVoice]
@[simp] theorem State.putVoice_time (s : State) (v : VoiceId) (r : Voice) : (s.putVoice v r).time = s.time := by simp [State.putVoice]
@[simp] theorem State.putVoice_streams (s : State) (v : VoiceId) (r : Voice) : (s.putVoice v r).streams = s.streams := by simp [State.putVoice]
@[simp] theorem State.putVoice_triggers (s : State) (v : VoiceId) (r : Voice) : (s.putVoice v r).triggers = s.triggers := by simp [State.putVoice]
@[simp] theorem State.putVoice_reports (s : State) (v : VoiceId) (r : Voice) : (s.putVoice v r).reports = s.reports := by simp [State.putVoice]
@[simp] theorem State.putVoice_link (s : State) (v : VoiceId) (r : Voice) : (s.putVoice v r).link = s.link := by simp [State.putVoice]
@[simp] theorem State.putVoice_pending (s : State) (v : VoiceId) (r : Voice) : (s.putVoice v r).pending = s.pending := by simp [State.putVoice]

/-! ### refUp -/
@[simp] theorem State.refUp_inReset (s : State) (p : PhraseId) : (s.refUp p).inReset = s.inReset := rfl
@[simp] theorem State.refUp_straps (s : State) (p : PhraseId) : (s.refUp p).straps = s.straps := rfl
@[simp] theorem State.refUp_sched (s : State) (p : PhraseId) : (s.refUp p).sched = s.sched := rfl
@[simp] theorem State.refUp_alloc (s : State) (p : PhraseId) : (s.refUp p).alloc = s.alloc := rfl
@[simp] theorem State.refUp_pitchMap (s : State) (p : PhraseId) : (s.refUp p).pitchMap = s.pitchMap := rfl
@[simp] theorem State.refUp_mixer (s : State) (p : PhraseId) : (s.refUp p).mixer = s.mixer := rfl
@[simp] theorem State.refUp_time (s : State) (p : PhraseId) : (s.refUp p).time = s.time := rfl
@[simp] theorem State.refUp_streams (s : State) (p : PhraseId) : (s.refUp p).streams = s.streams := rfl
@[simp] theorem State.refUp_triggers (s : State) (p : PhraseId) : (s.refUp p).triggers = s.triggers := rfl
@[simp] theorem State.refUp_reports (s : State) (p : PhraseId) : (s.refUp p).reports = s.reports := rfl
@[simp] theorem State.refUp_link (s : State) (p : PhraseId) : (s.refUp p).link = s.link := rfl
@[simp] theorem State.refUp_pending (s : State) (p : PhraseId) : (s.refUp p).pending = s.pending := rfl

/-! ### refDown -/
@[simp] theorem State.refDown_inReset (s : State) (p : PhraseId) : (s.refDown p).inReset = s.inReset := rfl
@[simp] theorem State.refDown_straps (s : State) (p : PhraseId) : (s.refDown p).straps = s.straps := rfl
@[simp] theorem State.refDown_sched (s : State) (p : PhraseId) : (s.refDown p).sched = s.sched := rfl
@[simp] theorem State.refDown_alloc (s : State) (p : PhraseId) : (s.refDown p).alloc = s.alloc := rfl
@[simp] theorem State.refDown_pitchMap (s : State) (p : PhraseId) : (s.refDown p).pitchMap = s.pitchMap := rfl
@[simp] theorem State.refDown_mixer (s : State) (p : PhraseId) : (s.refDown p).mixer = s.mixer := rfl
@[simp] theorem State.refDown_time (s : State) (p : PhraseId) : (s.refDown p).time = s.time := rfl
@[simp] theorem State.refDown_streams (s : State) (p : PhraseId) : (s.refDown p).streams = s.streams := rfl
@[simp] theorem State.refDown_triggers (s : State) (p : PhraseId) : (s.refDown p).triggers = s.triggers := rfl
@[simp] theorem State.refDown_reports (s : State) (p : PhraseId) : (s.refDown p).reports = s.reports := rfl
@[simp] theorem State.refDown_link (s : State) (p : PhraseId) : (s.refDown p).link = s.link := rfl
@[simp] theorem State.refDown_pending (s : State) (p : PhraseId) : (s.refDown p).pending = s.pending := rfl

/-! ### putStream -/
@[simp] theorem State.putStream_inReset (s : State) (i : StreamSlotId) (t : Option OpenStream) : (s.putStream i t).inReset = s.inReset := rfl
@[simp] theorem State.putStream_straps (s : State) (i : StreamSlotId) (t : Option OpenStream) : (s.putStream i t).straps = s.straps := rfl
@[simp] theorem State.putStream_sched (s : State) (i : StreamSlotId) (t : Option OpenStream) : (s.putStream i t).sched = s.sched := rfl
@[simp] theorem State.putStream_alloc (s : State) (i : StreamSlotId) (t : Option OpenStream) : (s.putStream i t).alloc = s.alloc := rfl
@[simp] theorem State.putStream_store (s : State) (i : StreamSlotId) (t : Option OpenStream) : (s.putStream i t).store = s.store := rfl
@[simp] theorem State.putStream_pitchMap (s : State) (i : StreamSlotId) (t : Option OpenStream) : (s.putStream i t).pitchMap = s.pitchMap := rfl
@[simp] theorem State.putStream_mixer (s : State) (i : StreamSlotId) (t : Option OpenStream) : (s.putStream i t).mixer = s.mixer := rfl
@[simp] theorem State.putStream_time (s : State) (i : StreamSlotId) (t : Option OpenStream) : (s.putStream i t).time = s.time := rfl
@[simp] theorem State.putStream_triggers (s : State) (i : StreamSlotId) (t : Option OpenStream) : (s.putStream i t).triggers = s.triggers := rfl
@[simp] theorem State.putStream_reports (s : State) (i : StreamSlotId) (t : Option OpenStream) : (s.putStream i t).reports = s.reports := rfl
@[simp] theorem State.putStream_link (s : State) (i : StreamSlotId) (t : Option OpenStream) : (s.putStream i t).link = s.link := rfl
@[simp] theorem State.putStream_pending (s : State) (i : StreamSlotId) (t : Option OpenStream) : (s.putStream i t).pending = s.pending := rfl

/-! ### dropTag -/
@[simp] theorem State.dropTag_inReset (s : State) (t : Tag) : (s.dropTag t).inReset = s.inReset := rfl
@[simp] theorem State.dropTag_straps (s : State) (t : Tag) : (s.dropTag t).straps = s.straps := rfl
@[simp] theorem State.dropTag_alloc (s : State) (t : Tag) : (s.dropTag t).alloc = s.alloc := rfl
@[simp] theorem State.dropTag_store (s : State) (t : Tag) : (s.dropTag t).store = s.store := rfl
@[simp] theorem State.dropTag_pitchMap (s : State) (t : Tag) : (s.dropTag t).pitchMap = s.pitchMap := rfl
@[simp] theorem State.dropTag_mixer (s : State) (t : Tag) : (s.dropTag t).mixer = s.mixer := rfl
@[simp] theorem State.dropTag_time (s : State) (t : Tag) : (s.dropTag t).time = s.time := rfl
@[simp] theorem State.dropTag_streams (s : State) (t : Tag) : (s.dropTag t).streams = s.streams := rfl
@[simp] theorem State.dropTag_triggers (s : State) (t : Tag) : (s.dropTag t).triggers = s.triggers := rfl
@[simp] theorem State.dropTag_reports (s : State) (t : Tag) : (s.dropTag t).reports = s.reports := rfl
@[simp] theorem State.dropTag_link (s : State) (t : Tag) : (s.dropTag t).link = s.link := rfl
@[simp] theorem State.dropTag_pending (s : State) (t : Tag) : (s.dropTag t).pending = s.pending := rfl

/-! ### dropEntry -/
@[simp] theorem State.dropEntry_inReset (s : State) (t : Tag) : (s.dropEntry t).inReset = s.inReset := rfl
@[simp] theorem State.dropEntry_straps (s : State) (t : Tag) : (s.dropEntry t).straps = s.straps := rfl
@[simp] theorem State.dropEntry_alloc (s : State) (t : Tag) : (s.dropEntry t).alloc = s.alloc := rfl
@[simp] theorem State.dropEntry_store (s : State) (t : Tag) : (s.dropEntry t).store = s.store := rfl
@[simp] theorem State.dropEntry_pitchMap (s : State) (t : Tag) : (s.dropEntry t).pitchMap = s.pitchMap := rfl
@[simp] theorem State.dropEntry_mixer (s : State) (t : Tag) : (s.dropEntry t).mixer = s.mixer := rfl
@[simp] theorem State.dropEntry_time (s : State) (t : Tag) : (s.dropEntry t).time = s.time := rfl
@[simp] theorem State.dropEntry_streams (s : State) (t : Tag) : (s.dropEntry t).streams = s.streams := rfl
@[simp] theorem State.dropEntry_triggers (s : State) (t : Tag) : (s.dropEntry t).triggers = s.triggers := rfl
@[simp] theorem State.dropEntry_reports (s : State) (t : Tag) : (s.dropEntry t).reports = s.reports := rfl
@[simp] theorem State.dropEntry_link (s : State) (t : Tag) : (s.dropEntry t).link = s.link := rfl
@[simp] theorem State.dropEntry_pending (s : State) (t : Tag) : (s.dropEntry t).pending = s.pending := rfl

/-! ### credit -/
@[simp] theorem State.credit_inReset (s : State) (n : Nat) : (State.credit n s).inReset = s.inReset := by unfold State.credit; split_ifs <;> rfl
@[simp] theorem State.credit_straps (s : State) (n : Nat) : (State.credit n s).straps = s.straps := by unfold State.credit; split_ifs <;> rfl
@[simp] theorem State.credit_sched (s : State) (n : Nat) : (State.credit n s).sched = s.sched := by unfold State.credit; split_ifs <;> rfl
@[simp] theorem State.credit_alloc (s : State) (n : Nat) : (State.credit n s).alloc = s.alloc := by unfold State.credit; split_ifs <;> rfl
@[simp] theorem State.credit_store (s : State) (n : Nat) : (State.credit n s).store = s.store := by unfold State.credit; split_ifs <;> rfl
@[simp] theorem State.credit_pitchMap (s : State) (n : Nat) : (State.credit n s).pitchMap = s.pitchMap := by unfold State.credit; split_ifs <;> rfl
@[simp] theorem State.credit_mixer (s : State) (n : Nat) : (State.credit n s).mixer = s.mixer := by unfold State.credit; split_ifs <;> rfl
@[simp] theorem State.credit_time (s : State) (n : Nat) : (State.credit n s).time = s.time := by unfold State.credit; split_ifs <;> rfl
@[simp] theorem State.credit_streams (s : State) (n : Nat) : (State.credit n s).streams = s.streams := by unfold State.credit; split_ifs <;> rfl
@[simp] theorem State.credit_triggers (s : State) (n : Nat) : (State.credit n s).triggers = s.triggers := by unfold State.credit; split_ifs <;> rfl
@[simp] theorem State.credit_link (s : State) (n : Nat) : (State.credit n s).link = s.link := by unfold State.credit; split_ifs <;> rfl
@[simp] theorem State.credit_pending (s : State) (n : Nat) : (State.credit n s).pending = s.pending := by unfold State.credit; split_ifs <;> rfl

/-! ### closeStream -/
@[simp] theorem State.closeStream_inReset (s : State) (i : StreamSlotId) : (s.closeStream i).inReset = s.inReset := by unfold State.closeStream; split <;> simp
@[simp] theorem State.closeStream_straps (s : State) (i : StreamSlotId) : (s.closeStream i).straps = s.straps := by unfold State.closeStream; split <;> simp
@[simp] theorem State.closeStream_sched (s : State) (i : StreamSlotId) : (s.closeStream i).sched = s.sched := by unfold State.closeStream; split <;> simp
@[simp] theorem State.closeStream_alloc (s : State) (i : StreamSlotId) : (s.closeStream i).alloc = s.alloc := by unfold State.closeStream; split <;> simp
@[simp] theorem State.closeStream_store (s : State) (i : StreamSlotId) : (s.closeStream i).store = s.store := by unfold State.closeStream; split <;> simp
@[simp] theorem State.closeStream_pitchMap (s : State) (i : StreamSlotId) : (s.closeStream i).pitchMap = s.pitchMap := by unfold State.closeStream; split <;> simp
@[simp] theorem State.closeStream_mixer (s : State) (i : StreamSlotId) : (s.closeStream i).mixer = s.mixer := by unfold State.closeStream; split <;> simp
@[simp] theorem State.closeStream_time (s : State) (i : StreamSlotId) : (s.closeStream i).time = s.time := by unfold State.closeStream; split <;> simp
@[simp] theorem State.closeStream_triggers (s : State) (i : StreamSlotId) : (s.closeStream i).triggers = s.triggers := by unfold State.closeStream; split <;> simp
@[simp] theorem State.closeStream_link (s : State) (i : StreamSlotId) : (s.closeStream i).link = s.link := by unfold State.closeStream; split <;> simp
@[simp] theorem State.closeStream_pending (s : State) (i : StreamSlotId) : (s.closeStream i).pending = s.pending := by unfold State.closeStream; split <;> simp

/-! ### putTrigger -/
@[simp] theorem State.putTrigger_inReset (s : State) (i : TriggerId) (a : Option Armed) : (s.putTrigger i a).inReset = s.inReset := rfl
@[simp] theorem State.putTrigger_straps (s : State) (i : TriggerId) (a : Option Armed) : (s.putTrigger i a).straps = s.straps := rfl
@[simp] theorem State.putTrigger_sched (s : State) (i : TriggerId) (a : Option Armed) : (s.putTrigger i a).sched = s.sched := rfl
@[simp] theorem State.putTrigger_alloc (s : State) (i : TriggerId) (a : Option Armed) : (s.putTrigger i a).alloc = s.alloc := rfl
@[simp] theorem State.putTrigger_store (s : State) (i : TriggerId) (a : Option Armed) : (s.putTrigger i a).store = s.store := rfl
@[simp] theorem State.putTrigger_pitchMap (s : State) (i : TriggerId) (a : Option Armed) : (s.putTrigger i a).pitchMap = s.pitchMap := rfl
@[simp] theorem State.putTrigger_mixer (s : State) (i : TriggerId) (a : Option Armed) : (s.putTrigger i a).mixer = s.mixer := rfl
@[simp] theorem State.putTrigger_time (s : State) (i : TriggerId) (a : Option Armed) : (s.putTrigger i a).time = s.time := rfl
@[simp] theorem State.putTrigger_streams (s : State) (i : TriggerId) (a : Option Armed) : (s.putTrigger i a).streams = s.streams := rfl
@[simp] theorem State.putTrigger_reports (s : State) (i : TriggerId) (a : Option Armed) : (s.putTrigger i a).reports = s.reports := rfl
@[simp] theorem State.putTrigger_link (s : State) (i : TriggerId) (a : Option Armed) : (s.putTrigger i a).link = s.link := rfl
@[simp] theorem State.putTrigger_pending (s : State) (i : TriggerId) (a : Option Armed) : (s.putTrigger i a).pending = s.pending := rfl

/-! ### disarmAll -/
@[simp] theorem State.disarmAll_inReset (s : State) : (s.disarmAll).inReset = s.inReset := rfl
@[simp] theorem State.disarmAll_straps (s : State) : (s.disarmAll).straps = s.straps := rfl
@[simp] theorem State.disarmAll_sched (s : State) : (s.disarmAll).sched = s.sched := rfl
@[simp] theorem State.disarmAll_alloc (s : State) : (s.disarmAll).alloc = s.alloc := rfl
@[simp] theorem State.disarmAll_store (s : State) : (s.disarmAll).store = s.store := rfl
@[simp] theorem State.disarmAll_pitchMap (s : State) : (s.disarmAll).pitchMap = s.pitchMap := rfl
@[simp] theorem State.disarmAll_mixer (s : State) : (s.disarmAll).mixer = s.mixer := rfl
@[simp] theorem State.disarmAll_time (s : State) : (s.disarmAll).time = s.time := rfl
@[simp] theorem State.disarmAll_streams (s : State) : (s.disarmAll).streams = s.streams := rfl
@[simp] theorem State.disarmAll_reports (s : State) : (s.disarmAll).reports = s.reports := rfl
@[simp] theorem State.disarmAll_link (s : State) : (s.disarmAll).link = s.link := rfl
@[simp] theorem State.disarmAll_pending (s : State) : (s.disarmAll).pending = s.pending := rfl

/-! ### clockVoices -/
@[simp] theorem State.clockVoices_inReset (s : State) : (s.clockVoices).inReset = s.inReset := rfl
@[simp] theorem State.clockVoices_straps (s : State) : (s.clockVoices).straps = s.straps := rfl
@[simp] theorem State.clockVoices_sched (s : State) : (s.clockVoices).sched = s.sched := rfl
@[simp] theorem State.clockVoices_store (s : State) : (s.clockVoices).store = s.store := rfl
@[simp] theorem State.clockVoices_pitchMap (s : State) : (s.clockVoices).pitchMap = s.pitchMap := rfl
@[simp] theorem State.clockVoices_mixer (s : State) : (s.clockVoices).mixer = s.mixer := rfl
@[simp] theorem State.clockVoices_time (s : State) : (s.clockVoices).time = s.time := rfl
@[simp] theorem State.clockVoices_streams (s : State) : (s.clockVoices).streams = s.streams := rfl
@[simp] theorem State.clockVoices_triggers (s : State) : (s.clockVoices).triggers = s.triggers := rfl
@[simp] theorem State.clockVoices_reports (s : State) : (s.clockVoices).reports = s.reports := rfl
@[simp] theorem State.clockVoices_link (s : State) : (s.clockVoices).link = s.link := rfl
@[simp] theorem State.clockVoices_pending (s : State) : (s.clockVoices).pending = s.pending := rfl

/-! ### hold -/
@[simp] theorem State.hold_inReset (s : State) (b : List Byte) : (s.hold b).inReset = s.inReset := rfl
@[simp] theorem State.hold_straps (s : State) (b : List Byte) : (s.hold b).straps = s.straps := rfl
@[simp] theorem State.hold_sched (s : State) (b : List Byte) : (s.hold b).sched = s.sched := rfl
@[simp] theorem State.hold_alloc (s : State) (b : List Byte) : (s.hold b).alloc = s.alloc := rfl
@[simp] theorem State.hold_store (s : State) (b : List Byte) : (s.hold b).store = s.store := rfl
@[simp] theorem State.hold_pitchMap (s : State) (b : List Byte) : (s.hold b).pitchMap = s.pitchMap := rfl
@[simp] theorem State.hold_mixer (s : State) (b : List Byte) : (s.hold b).mixer = s.mixer := rfl
@[simp] theorem State.hold_time (s : State) (b : List Byte) : (s.hold b).time = s.time := rfl
@[simp] theorem State.hold_streams (s : State) (b : List Byte) : (s.hold b).streams = s.streams := rfl
@[simp] theorem State.hold_triggers (s : State) (b : List Byte) : (s.hold b).triggers = s.triggers := rfl
@[simp] theorem State.hold_reports (s : State) (b : List Byte) : (s.hold b).reports = s.reports := rfl
@[simp] theorem State.hold_pending (s : State) (b : List Byte) : (s.hold b).pending = s.pending := rfl

/-! ### countDiscard -/
@[simp] theorem State.countDiscard_inReset (s : State) : (s.countDiscard).inReset = s.inReset := rfl
@[simp] theorem State.countDiscard_straps (s : State) : (s.countDiscard).straps = s.straps := rfl
@[simp] theorem State.countDiscard_sched (s : State) : (s.countDiscard).sched = s.sched := rfl
@[simp] theorem State.countDiscard_alloc (s : State) : (s.countDiscard).alloc = s.alloc := rfl
@[simp] theorem State.countDiscard_store (s : State) : (s.countDiscard).store = s.store := rfl
@[simp] theorem State.countDiscard_pitchMap (s : State) : (s.countDiscard).pitchMap = s.pitchMap := rfl
@[simp] theorem State.countDiscard_mixer (s : State) : (s.countDiscard).mixer = s.mixer := rfl
@[simp] theorem State.countDiscard_time (s : State) : (s.countDiscard).time = s.time := rfl
@[simp] theorem State.countDiscard_streams (s : State) : (s.countDiscard).streams = s.streams := rfl
@[simp] theorem State.countDiscard_triggers (s : State) : (s.countDiscard).triggers = s.triggers := rfl
@[simp] theorem State.countDiscard_reports (s : State) : (s.countDiscard).reports = s.reports := rfl
@[simp] theorem State.countDiscard_pending (s : State) : (s.countDiscard).pending = s.pending := rfl

/-! ### reply -/
@[simp] theorem State.reply_inReset (s : State) (num code : Byte) (f : List Byte) (a : Answer) : (s.reply num code f a).inReset = s.inReset := rfl
@[simp] theorem State.reply_straps (s : State) (num code : Byte) (f : List Byte) (a : Answer) : (s.reply num code f a).straps = s.straps := rfl
@[simp] theorem State.reply_sched (s : State) (num code : Byte) (f : List Byte) (a : Answer) : (s.reply num code f a).sched = s.sched := rfl
@[simp] theorem State.reply_alloc (s : State) (num code : Byte) (f : List Byte) (a : Answer) : (s.reply num code f a).alloc = s.alloc := rfl
@[simp] theorem State.reply_store (s : State) (num code : Byte) (f : List Byte) (a : Answer) : (s.reply num code f a).store = s.store := rfl
@[simp] theorem State.reply_pitchMap (s : State) (num code : Byte) (f : List Byte) (a : Answer) : (s.reply num code f a).pitchMap = s.pitchMap := rfl
@[simp] theorem State.reply_mixer (s : State) (num code : Byte) (f : List Byte) (a : Answer) : (s.reply num code f a).mixer = s.mixer := rfl
@[simp] theorem State.reply_time (s : State) (num code : Byte) (f : List Byte) (a : Answer) : (s.reply num code f a).time = s.time := rfl
@[simp] theorem State.reply_streams (s : State) (num code : Byte) (f : List Byte) (a : Answer) : (s.reply num code f a).streams = s.streams := rfl
@[simp] theorem State.reply_triggers (s : State) (num code : Byte) (f : List Byte) (a : Answer) : (s.reply num code f a).triggers = s.triggers := rfl
@[simp] theorem State.reply_reports (s : State) (num code : Byte) (f : List Byte) (a : Answer) : (s.reply num code f a).reports = s.reports := rfl
@[simp] theorem State.reply_pending (s : State) (num code : Byte) (f : List Byte) (a : Answer) : (s.reply num code f a).pending = s.pending := rfl

/-! ### chooseFrame -/
@[simp] theorem State.chooseFrame_inReset (s : State) : (s.chooseFrame).inReset = s.inReset := by unfold State.chooseFrame; (repeat' split) <;> rfl
@[simp] theorem State.chooseFrame_straps (s : State) : (s.chooseFrame).straps = s.straps := by unfold State.chooseFrame; (repeat' split) <;> rfl
@[simp] theorem State.chooseFrame_sched (s : State) : (s.chooseFrame).sched = s.sched := by unfold State.chooseFrame; (repeat' split) <;> rfl
@[simp] theorem State.chooseFrame_alloc (s : State) : (s.chooseFrame).alloc = s.alloc := by unfold State.chooseFrame; (repeat' split) <;> rfl
@[simp] theorem State.chooseFrame_store (s : State) : (s.chooseFrame).store = s.store := by unfold State.chooseFrame; (repeat' split) <;> rfl
@[simp] theorem State.chooseFrame_pitchMap (s : State) : (s.chooseFrame).pitchMap = s.pitchMap := by unfold State.chooseFrame; (repeat' split) <;> rfl
@[simp] theorem State.chooseFrame_mixer (s : State) : (s.chooseFrame).mixer = s.mixer := by unfold State.chooseFrame; (repeat' split) <;> rfl
@[simp] theorem State.chooseFrame_time (s : State) : (s.chooseFrame).time = s.time := by unfold State.chooseFrame; (repeat' split) <;> rfl
@[simp] theorem State.chooseFrame_streams (s : State) : (s.chooseFrame).streams = s.streams := by unfold State.chooseFrame; (repeat' split) <;> rfl
@[simp] theorem State.chooseFrame_triggers (s : State) : (s.chooseFrame).triggers = s.triggers := by unfold State.chooseFrame; (repeat' split) <;> rfl
@[simp] theorem State.chooseFrame_pending (s : State) : (s.chooseFrame).pending = s.pending := by unfold State.chooseFrame; (repeat' split) <;> rfl

/-! ### replyLeft -/
@[simp] theorem State.replyLeft_inReset (s : State) : (s.replyLeft).inReset = s.inReset := rfl
@[simp] theorem State.replyLeft_straps (s : State) : (s.replyLeft).straps = s.straps := rfl
@[simp] theorem State.replyLeft_sched (s : State) : (s.replyLeft).sched = s.sched := rfl
@[simp] theorem State.replyLeft_alloc (s : State) : (s.replyLeft).alloc = s.alloc := rfl
@[simp] theorem State.replyLeft_store (s : State) : (s.replyLeft).store = s.store := rfl
@[simp] theorem State.replyLeft_pitchMap (s : State) : (s.replyLeft).pitchMap = s.pitchMap := rfl
@[simp] theorem State.replyLeft_mixer (s : State) : (s.replyLeft).mixer = s.mixer := rfl
@[simp] theorem State.replyLeft_time (s : State) : (s.replyLeft).time = s.time := rfl
@[simp] theorem State.replyLeft_streams (s : State) : (s.replyLeft).streams = s.streams := rfl
@[simp] theorem State.replyLeft_triggers (s : State) : (s.replyLeft).triggers = s.triggers := rfl
@[simp] theorem State.replyLeft_reports (s : State) : (s.replyLeft).reports = s.reports := rfl
@[simp] theorem State.replyLeft_pending (s : State) : (s.replyLeft).pending = s.pending := rfl
@[simp] theorem State.replyLeft_replies (s : State) : s.replyLeft.link.replies = s.link.replies.drop 1 := rfl
@[simp] theorem State.replyLeft_transmitter (s : State) : s.replyLeft.link.transmitter = .idle := rfl

/-! ### sampleStraps -/
@[simp] theorem State.sampleStraps_inReset (s : State) (p : Straps) : (s.sampleStraps p).inReset = s.inReset := rfl
@[simp] theorem State.sampleStraps_sched (s : State) (p : Straps) : (s.sampleStraps p).sched = s.sched := rfl
@[simp] theorem State.sampleStraps_alloc (s : State) (p : Straps) : (s.sampleStraps p).alloc = s.alloc := rfl
@[simp] theorem State.sampleStraps_store (s : State) (p : Straps) : (s.sampleStraps p).store = s.store := rfl
@[simp] theorem State.sampleStraps_pitchMap (s : State) (p : Straps) : (s.sampleStraps p).pitchMap = s.pitchMap := rfl
@[simp] theorem State.sampleStraps_time (s : State) (p : Straps) : (s.sampleStraps p).time = s.time := rfl
@[simp] theorem State.sampleStraps_streams (s : State) (p : Straps) : (s.sampleStraps p).streams = s.streams := rfl
@[simp] theorem State.sampleStraps_triggers (s : State) (p : Straps) : (s.sampleStraps p).triggers = s.triggers := rfl
@[simp] theorem State.sampleStraps_reports (s : State) (p : Straps) : (s.sampleStraps p).reports = s.reports := rfl
@[simp] theorem State.sampleStraps_pending (s : State) (p : Straps) : (s.sampleStraps p).pending = s.pending := rfl

/-! ### reportSent -/
@[simp] theorem State.reportSent_inReset (s : State) : (s.reportSent).inReset = s.inReset := by unfold State.reportSent; split <;> rfl
@[simp] theorem State.reportSent_straps (s : State) : (s.reportSent).straps = s.straps := by unfold State.reportSent; split <;> rfl
@[simp] theorem State.reportSent_sched (s : State) : (s.reportSent).sched = s.sched := by unfold State.reportSent; split <;> rfl
@[simp] theorem State.reportSent_alloc (s : State) : (s.reportSent).alloc = s.alloc := by unfold State.reportSent; split <;> rfl
@[simp] theorem State.reportSent_store (s : State) : (s.reportSent).store = s.store := by unfold State.reportSent; split <;> rfl
@[simp] theorem State.reportSent_pitchMap (s : State) : (s.reportSent).pitchMap = s.pitchMap := by unfold State.reportSent; split <;> rfl
@[simp] theorem State.reportSent_mixer (s : State) : (s.reportSent).mixer = s.mixer := by unfold State.reportSent; split <;> rfl
@[simp] theorem State.reportSent_time (s : State) : (s.reportSent).time = s.time := by unfold State.reportSent; split <;> rfl
@[simp] theorem State.reportSent_streams (s : State) : (s.reportSent).streams = s.streams := by unfold State.reportSent; split <;> rfl
@[simp] theorem State.reportSent_triggers (s : State) : (s.reportSent).triggers = s.triggers := by unfold State.reportSent; split <;> rfl
@[simp] theorem State.reportSent_pending (s : State) : (s.reportSent).pending = s.pending := by unfold State.reportSent; split <;> rfl

/-! ### What the updates write -/

@[simp] theorem State.offer_reports (s : State) (k : ReportKind) :
    (s.offer k).reports = s.reports.offer k s.now := rfl
@[simp] theorem State.askPass_passes (s : State) : s.askPass.alloc.passes = s.alloc.passes + 1 := rfl
@[simp] theorem State.askPass_voices (s : State) : s.askPass.alloc.voices = s.alloc.voices := rfl
@[simp] theorem State.followDuck_alloc_eq (old new : State) : (old.followDuck new).alloc = new.alloc := by simp
@[simp] theorem State.putVoice_passes (s : State) (v : VoiceId) (r : Voice) :
    (s.putVoice v r).alloc.passes = s.alloc.passes := by simp [State.putVoice]
@[simp] theorem State.putVoice_voices (s : State) (v : VoiceId) (r : Voice) :
    (s.putVoice v r).alloc.voices = s.alloc.voices.set v r := by simp [State.putVoice]
theorem State.putVoice_same (s : State) (v : VoiceId) (r : Voice) : (s.putVoice v r).voice v = r := by
  simp [State.voice]
theorem State.putVoice_other (s : State) (v u : VoiceId) (r : Voice) (h : u ≠ v) :
    (s.putVoice v r).voice u = s.voice u := by
  simp only [State.voice, State.putVoice_voices]
  exact Vector.getElem_set_ne _ _ (fun e => h (Fin.ext e.symm))
@[simp] theorem State.dropTag_entries (s : State) (t : Tag) : (s.dropTag t).sched.entries = s.sched.entries := rfl
@[simp] theorem State.dropEntry_live (s : State) (t : Tag) : (s.dropEntry t).sched.live = s.sched.live := rfl

/-! ### insertEntry -/

theorem insertEntry_perm (new : Entry) (l : List Entry) : (insertEntry new l).Perm (new :: l) := by
  induction l with
  | nil => exact .refl _
  | cons e l ih =>
    unfold insertEntry
    split
    · exact .refl _
    · exact (ih.cons e).trans (.swap new e l)

@[simp] theorem insertEntry_length (new : Entry) (l : List Entry) : (insertEntry new l).length = l.length + 1 := by
  simpa using (insertEntry_perm new l).length_eq

/-! ### freezeStream -/

@[simp] theorem State.freezeStream_alloc (s : State) (v : VoiceId) (tag : Tag) : (s.freezeStream v tag).alloc = s.alloc := by
  unfold State.freezeStream; split
  · split <;> rfl
  · rfl
@[simp] theorem State.freezeStream_sched (s : State) (v : VoiceId) (tag : Tag) : (s.freezeStream v tag).sched = s.sched := by
  unfold State.freezeStream; split
  · split <;> rfl
  · rfl
@[simp] theorem State.freezeStream_mixer (s : State) (v : VoiceId) (tag : Tag) : (s.freezeStream v tag).mixer = s.mixer := by
  unfold State.freezeStream; split
  · split <;> rfl
  · rfl

end Sys2Proof.Machine
end

