-- ==== Sys2Proof/Laws/Closure.lean ====
section
/-! SUPPORT. What the operations of the voices, players, streams, scheduler, time base and trigger unit can do, said once for
each: every one of them is a run of the few updates named in `Closed`, so that what those keep, it keeps. -/

namespace Sys2Proof.Machine

/-- A property of states that each update the sounding blocks make keeps. `Closed.stream` lets a stream's filled blocks and
id alone; `Closed.useHead` is the use of a head block (R133), `Closed.closeStream` a close (R138). -/
structure Closed (P : State → Prop) : Prop where
  offer : ∀ s k, P s → P (s.offer k)
  sched : ∀ s x, P s → P { s with sched := x }
  passes : ∀ s n, P s → P { s with alloc := { s.alloc with passes := n } }
  putVoice : ∀ s v r, P s → P (s.putVoice v r)
  refUp : ∀ s p, P s → P (s.refUp p)
  refDown : ∀ s p, P s → P (s.refDown p)
  stream : ∀ s i f, (∀ t, (f t).filled = t.filled ∧ (f t).id = t.id) → P s →
    P (s.putStream i ((s.stream i).map f))
  useHead : ∀ s i t b rest, s.stream i = some t → t.filled = b :: rest → P s →
    P ({ s with streams := s.streams.free [b] }.putStream i
      (some { t with filled := rest, read := some { index := 0, holdCount := 0 } }))
  closeStream : ∀ s i, P s → P (s.closeStream i)
  triggers : ∀ s x, P s → P { s with triggers := x }

namespace Closed

variable {P : State → Prop} (h : Closed P)
include h

theorem putSome (s : State) (i : StreamSlotId) (t t' : OpenStream) (e : s.stream i = some t)
    (hf : t'.filled = t.filled) (hi : t'.id = t.id) (hp : P s) : P (s.putStream i (some t')) := by
  have k := h.stream s i (fun x => { t' with filled := x.filled, id := x.id }) (fun x => ⟨rfl, rfl⟩) hp
  rw [e] at k
  simpa [← hf, ← hi] using k

theorem credit (s : State) (n : Nat) (hp : P s) : P (State.credit n s) := by
  unfold State.credit
  split_ifs
  · exact h.offer _ _ hp
  · exact hp

theorem askPass (s : State) (hp : P s) : P s.askPass := h.passes _ _ hp

theorem dropTag (s : State) (t : Tag) (hp : P s) : P (s.dropTag t) := h.sched _ _ hp

theorem dropEntry (s : State) (t : Tag) (hp : P s) : P (s.dropEntry t) := h.sched _ _ hp

theorem releaseSource (s : State) (c : Cue) (hp : P s) : P (s.releaseSource c) := by
  unfold State.releaseSource
  split
  · exact h.refDown _ _ hp
  · exact hp
  · exact hp
  · split
    · exact h.closeStream _ _ hp
    · exact hp

theorem retire (s : State) (c : Cue) (r : EndReason) (v : Option VoiceId) (hp : P s) : P (s.retire c r v) :=
  h.releaseSource _ _ (h.dropTag _ _ (h.offer _ _ hp))

theorem removeEntry (s : State) (t : Tag) (r : EndReason) (hp : P s) : P (s.removeEntry t r) := by
  unfold State.removeEntry
  split
  · exact h.retire _ _ _ _ (h.dropEntry _ _ hp)
  · exact hp

theorem releaseCall (s : State) (p : Option Player) (hp : P s) : P (s.releaseCall p) := by
  unfold State.releaseCall
  split
  · exact h.refDown _ _ hp
  · exact hp

theorem endCurrent (s : State) (v : VoiceId) (hp : P s) : P (s.endCurrent v) := by
  unfold State.endCurrent
  split
  · exact h.releaseSource _ _ (h.releaseCall _ _ (h.dropTag _ _ (h.offer _ _ hp)))
  · exact hp

theorem leaveIdle (s : State) (v : VoiceId) (hp : P s) : P (s.leaveIdle v) :=
  h.askPass _ (h.putVoice _ _ _ hp)

theorem endToIdle (s : State) (v : VoiceId) (hp : P s) : P (s.endToIdle v) :=
  h.leaveIdle _ _ (h.endCurrent _ _ hp)

theorem freezeStream (s : State) (v : VoiceId) (t : Tag) (hp : P s) : P (s.freezeStream v t) := by
  unfold State.freezeStream
  split_ifs
  · split
    · exact h.stream _ _ _ (fun _ => ⟨rfl, rfl⟩) hp
    · exact hp
  · exact hp

theorem enterEnding (s : State) (v : VoiceId) (r : EndReason) (hp : P s) : P (s.enterEnding v r) := by
  unfold State.enterEnding
  dsimp only
  split
  · split_ifs
    · exact h.endToIdle _ _ (h.freezeStream _ _ _ (h.putVoice _ _ _ hp))
    · exact h.freezeStream _ _ _ (h.putVoice _ _ _ hp)
  · exact hp

theorem removeIncoming (s : State) (v : VoiceId) (r : EndReason) (hp : P s) : P (s.removeIncoming v r) := by
  unfold State.removeIncoming
  split
  · exact h.retire _ _ _ _ (h.putVoice _ _ _ hp)
  · exact hp

omit h in
theorem foldl {α : Type} (f : State → α → State) (hf : ∀ s a, P s → P (f s a)) (l : List α) (s : State) (hp : P s) :
    P (l.foldl f s) := by
  induction l generalizing s with
  | nil => exact hp
  | cons a l ih => exact ih _ (hf _ _ hp)

theorem chokeVoice (s : State) (g : Nat) (v : VoiceId) (hp : P s) : P (s.chokeVoice g v) := by
  unfold State.chokeVoice
  split_ifs
  · exact h.enterEnding _ _ _ hp
  · exact hp

theorem choke (s : State) (v : VoiceId) (c : Cue) (hp : P s) : P (s.choke v c) := by
  unfold State.choke
  split_ifs
  · exact foldl _ (fun s v hp => h.chokeVoice s c.group v hp) _ _ hp
  · exact hp

theorem putPlayer (s : State) (v : VoiceId) (p : Player) (e : Envelope) (hp : P s) : P (s.putPlayer v p e) :=
  h.putVoice _ _ _ hp

theorem startRest (s : State) (v : VoiceId) (p : Player) (hd : Header) (d : Nat) (hp : P s) :
    P (s.startRest v p hd d) :=
  h.putPlayer _ _ _ _ hp

theorem startNote (s : State) (v : VoiceId) (p : Player) (c : Cue) (hd : Header) (n : Note) (d vol g : Nat) (hp : P s) :
    P (s.startNote v p c hd n d vol g) := by
  unfold State.startNote
  dsimp only
  split_ifs
  · exact h.startRest _ _ _ _ _ hp
  · exact h.putPlayer _ _ _ _ hp

theorem takeCall (s : State) (v : VoiceId) (p : Player) (c : Cue) (t : PhraseId) (e : Envelope) (hp : P s) :
    P (s.takeCall v p c t e) := by
  unfold State.takeCall
  split
  · split_ifs
    · exact h.putPlayer _ _ _ _ (h.refUp _ _ hp)
    · exact h.putPlayer _ _ _ _ (h.offer _ _ hp)
  · split_ifs
    · exact h.putPlayer _ _ _ _ hp
    · exact h.putPlayer _ _ _ _ (h.offer _ _ hp)
  · exact h.putPlayer _ _ _ _ hp

theorem carryOut (s : State) (v : VoiceId) (p : Player) (c : Cue) (st : Step) (hp : P s) :
    P (s.carryOut v p c st).1 := by
  unfold State.carryOut
  cases st with
  | note => exact h.startNote _ _ _ _ _ _ _ _ _ hp
  | rest => exact h.startRest _ _ _ _ _ hp
  | call => exact h.takeCall _ _ _ _ _ _ hp
  | mark => exact h.putPlayer _ _ _ _ (h.offer _ _ hp)
  | shape => exact h.putPlayer _ _ _ _ hp

theorem endPass (s : State) (v : VoiceId) (p : Player) (t : TopPosition) (hp : P s) : P (s.endPass v p t).1 := by
  unfold State.endPass
  dsimp only
  split
  · exact h.putPlayer _ _ _ _ hp
  · exact h.enterEnding _ _ _ (h.putPlayer _ _ _ _ hp)
  · exact h.putPlayer _ _ _ _ hp

theorem runOne (s : State) (v : VoiceId) (hp : P s) : P (s.runOne v).1 := by
  unfold State.runOne
  split
  · split
    · dsimp only
      split
      · exact h.carryOut _ _ _ _ _ hp
      · exact h.putPlayer _ _ _ _ (h.refDown _ _ hp)
    · dsimp only
      split
      · exact h.carryOut _ _ _ _ _ hp
      · exact h.endPass _ _ _ _ hp
    · exact h.enterEnding _ _ _ hp
  · exact hp

theorem run (n : Nat) (v : VoiceId) (s : State) (hp : P s) : P (State.run n v s) := by
  induction n generalizing s with
  | zero => exact hp
  | succ n ih =>
    unfold State.run
    have k := h.runOne s v hp
    dsimp only
    split_ifs
    · exact ih _ k
    · exact k

theorem startPlayer (s : State) (v : VoiceId) (c : Cue) (hp : P s) : P (s.startPlayer v c) := by
  unfold State.startPlayer
  split
  · exact h.run _ _ _ (h.putPlayer _ _ _ _ hp)
  · exact h.startNote _ _ _ _ _ _ _ _ _ (h.putPlayer _ _ _ _ hp)
  · exact h.startNote _ _ _ _ _ _ _ _ _ (h.putPlayer _ _ _ _ hp)
  · exact hp

theorem endStep (s : State) (v : VoiceId) (p : Player) (hp : P s) : P (s.endStep v p) :=
  h.run _ _ _ (h.putPlayer _ _ _ _ hp)

theorem startStream (s : State) (c : Cue) (hp : P s) : P (s.startStream c) := by
  unfold State.startStream
  split
  · split
    · rename_i t e
      have k : P (s.putStream _ (some { t with state := .playing, read := some { index := 0, holdCount := 0 } })) :=
        h.putSome s _ t _ e rfl rfl hp
      dsimp only
      split_ifs
      · exact h.enterEnding _ _ _ k
      · exact k
    · exact hp
  · exact hp

theorem resume (s : State) (i : StreamSlotId) (t t0 : OpenStream) (e : s.stream i = some t0) (hf : t.filled = t0.filled)
    (hi : t.id = t0.id) (hp : P s) : P (s.resume i t) := by
  unfold State.resume
  have k := h.offer _ (.streamResumed t.id)
    (h.putSome s i t0
      { t with state := .playing, starve := none, read := some { index := 0, holdCount := 0 } } e hf hi hp)
  dsimp only
  split_ifs
  · exact h.enterEnding _ _ _ k
  · exact k

theorem starve (s : State) (i : StreamSlotId) (t : OpenStream) (e : s.stream i = some t) (hp : P s) :
    P (s.starve i t) := by
  unfold State.starve
  dsimp only
  split
  · exact h.offer _ _ (h.putSome s i t _ e rfl rfl hp)
  · exact h.enterEnding _ _ _ (h.offer _ _ (h.putSome s i t _ e rfl rfl hp))

theorem startCue (s : State) (v : VoiceId) (c : Cue) (hp : P s) : P (s.startCue v c) := by
  unfold State.startCue
  have k := h.offer _ (.cueStarted c.tag v) (h.putVoice s v (Voice.starting v c s.now) hp)
  dsimp only
  apply h.choke
  split_ifs
  · exact h.startStream _ _ k
  · exact h.startPlayer _ _ _ k

theorem steal (s : State) (v : VoiceId) (c : Cue) (hp : P s) : P (s.steal v c) := by
  unfold State.steal
  dsimp only
  split
  · exact h.freezeStream _ _ _ (h.putVoice _ _ _ (h.dropEntry _ _ hp))
  · exact hp

theorem serveCue (s : State) (c : Cue) (hp : P s) : P (s.serveCue c) := by
  unfold State.serveCue
  split
  · exact hp
  · split
    · exact h.startCue _ _ _ (h.dropEntry _ _ hp)
    · exact h.steal _ _ _ hp
    · split
      · exact h.removeEntry _ _ _ hp
      · exact hp

theorem serveTag (s : State) (t : Tag) (hp : P s) : P (s.serveTag t) := by
  unfold State.serveTag
  split
  · split_ifs
    · exact h.serveCue _ _ hp
    · exact hp
  · exact hp

theorem pass (s : State) (hp : P s) : P s.pass := foldl _ (fun s t hp => h.serveTag s t hp) _ _ hp

theorem handOver (s : State) (v : VoiceId) (hp : P s) : P (s.handOver v) := by
  unfold State.handOver
  split
  · exact h.startCue _ _ _ (h.endCurrent _ _ hp)
  · exact h.endToIdle _ _ hp

theorem endAtOnce (s : State) (v : VoiceId) (r : EndReason) (hp : P s) : P (s.endAtOnce v r) := by
  unfold State.endAtOnce
  split_ifs
  · exact h.handOver _ _ (h.putVoice _ _ _ hp)
  · exact hp

theorem endLive (s : State) (t : Tag) (r : EndReason) (hp : P s) : P (s.endLive t r) := by
  unfold State.endLive
  split
  · exact h.removeEntry _ _ _ hp
  · exact h.removeIncoming _ _ _ hp
  · exact h.endAtOnce _ _ _ hp
  · exact hp

theorem quietAll (s : State) (r : EndReason) (hp : P s) : P (s.quietAll r) := by
  unfold State.quietAll
  exact h.triggers _ _ (foldl _ (fun s i hp => h.closeStream s i hp) _ _
    (foldl _ (fun s v hp => h.endAtOnce s v r hp) _ _
      (foldl _ (fun s v hp => h.removeIncoming s v r hp) _ _
        (foldl _ (fun s t hp => h.removeEntry s t r hp) _ _ hp))))

theorem holdSource (s : State) (c : Cue) (hp : P s) : P (s.holdSource c) := by
  unfold State.holdSource State.bind
  split
  · exact h.refUp _ _ hp
  · split
    · exact h.stream _ _ _ (fun _ => ⟨rfl, rfl⟩) hp
    · exact hp
  · exact hp
  · exact hp

theorem accept (s : State) (t : Template) (hp : P s) : P (s.accept t) := by
  unfold State.accept
  exact h.holdSource _ _ (h.sched _ _ hp)

theorem moveEntries (s : State) (a : Entry → Bool) (f : Entry → Entry) (hp : P s) : P (s.moveEntries a f) := by
  unfold State.moveEntries
  have k := fun x => h.sched s x hp
  dsimp only
  split
  · exact h.askPass _ (k _)
  · exact k _

theorem dueEvent (s : State) (hp : P s) : P s.dueEvent := h.moveEntries _ _ _ hp

theorem dueOwn (s : State) (n : BitVec 32) (hp : P s) : P (s.dueOwn n) := h.moveEntries _ _ _ hp

theorem dueSince (s : State) (n : BitVec 32) (hp : P s) : P (s.dueSince n) :=
  foldl _ (fun s _ hp => h.dueOwn s _ hp) _ _ hp

theorem deadline (s : State) (t : Tag) (hp : P s) : P (s.deadline t) := by
  unfold State.deadline
  split
  · split_ifs
    · exact h.removeEntry _ _ _ hp
    · exact hp
  · exact hp

theorem deliverBeat (s : State) (hp : P s) : P s.deliverBeat := h.offer _ _ (h.moveEntries _ _ _ hp)

theorem fireTemplate (s : State) (i : TriggerId) (t : Template) (hp : P s) : P (s.fireTemplate i t) := by
  unfold State.fireTemplate
  split
  · exact h.offer _ _ hp
  · exact h.offer _ _ (h.accept _ _ hp)

theorem fireSlot (s : State) (i : TriggerId) (a : Armed) (hp : P s) : P (s.fireSlot i a) := by
  unfold State.fireSlot
  split_ifs
  · split
    · exact h.offer _ _ hp
    · exact h.fireTemplate _ _ _ (h.endLive _ _ _ hp)
  · exact h.fireTemplate _ _ _ hp

theorem serveTrigger (l : TrgLine) (b : Bool) (s : State) (i : TriggerId) (hp : P s) :
    P (State.serveTrigger l b s i) := by
  unfold State.serveTrigger
  split
  · split
    · dsimp only
      split
      · exact h.triggers _ _ (h.fireSlot _ _ _ hp)
      · exact h.fireSlot _ _ _ hp
    · exact hp
  · exact hp

theorem fire (s : State) (l : TrgLine) (hp : P s) : P (s.fire l) := by
  unfold State.fire
  split
  · exact h.dueSince _ _ (foldl _ (fun s i hp => h.serveTrigger _ _ s i hp) _ _ (h.triggers _ _ hp))
  · exact hp

theorem useUp (s : State) (i : StreamSlotId) (t : OpenStream) (b : BlockId) (rest : List BlockId)
    (e : s.stream i = some t) (hf : t.filled = b :: rest) (hp : P s) : P (s.useUp i t) := by
  unfold State.useUp
  have k := h.credit _ s.freeCount (h.useHead s i t b rest e hf hp)
  have e' : ∀ n, (State.credit n ({ s with streams := s.streams.free [b] }.putStream i
      (some { t with filled := rest, read := some { index := 0, holdCount := 0 } }))).stream i =
      some { t with filled := rest, read := some { index := 0, holdCount := 0 } } := by
    intro n
    simp [State.stream, State.putStream]
  simp only [hf, List.tail_cons, List.head?_cons, Option.toList_some] at *
  split_ifs
  · exact h.enterEnding _ _ _ k
  · exact h.starve _ _ _ (e' _) k
  · exact k

theorem finishBlock (s : State) (hp : P s) : P s.finishBlock := by
  unfold State.finishBlock
  split
  · rename_i i t e
    unfold State.usedUpSlot at e
    obtain ⟨j, hj, e⟩ := Option.bind_eq_some_iff.mp e
    obtain ⟨t', ht, e⟩ := Option.bind_eq_some_iff.mp e
    split_ifs at e with hu
    obtain ⟨rfl, rfl⟩ : j = i ∧ t' = t := by simpa using e
    unfold State.usedUp State.headBlock at hu
    cases hf : t'.filled with
    | nil => simp [hf] at hu
    | cons b rest => exact h.useUp _ _ _ _ _ ht hf hp
  · exact hp

theorem starveLimit (s : State) (i : StreamSlotId) (hp : P s) : P (s.starveLimit i) := by
  unfold State.starveLimit
  split
  · rename_i t e
    split_ifs
    · have k := h.putSome s i t { t with starve := none } e rfl rfl hp
      dsimp only
      split_ifs
      · exact h.enterEnding _ _ _ k
      · exact k
    · exact hp
  · exact hp

theorem rateStep (s : State) (v : VoiceId) (hp : P s) : P (s.rateStep v) := h.putVoice _ _ _ hp

theorem gateEnd (s : State) (v : VoiceId) (hp : P s) : P (s.gateEnd v) := by
  unfold State.gateEnd
  dsimp only
  split
  · exact h.putVoice _ _ _ hp
  · exact hp

theorem stepOver (s : State) (v : VoiceId) (hp : P s) : P (s.stepOver v) := by
  unfold State.stepOver
  split
  · exact h.endStep _ _ _ (h.rateStep _ _ hp)
  · exact hp

end Closed

end Sys2Proof.Machine
end

