-- ==== Sys2Proof/Laws/Keeping.lean ====
section
/-! SUPPORT. What a command can do, said once: beside the updates of `Closed`, every command is a run of the updates named in
`Kept`, so that a property these keep is kept by every command and every step. -/

namespace Sys2Proof.Machine

/-- The updates a SYNC edge and a beat edge make to the time base (R108, R110, R117). -/
def TimeBase.atSync (t : TimeBase) : TimeBase :=
  { t.syncLength with
    previousSync := some t.syncLength.tick, lossReference := some t.syncLength.tick, interval := 0, sync := .locked }

/-- The update a loss makes to the time base (R118). -/
def TimeBase.atLoss (t : TimeBase) : TimeBase :=
  { t with
    sync := .fallback, lossReference := none, previousSync := none
    interval := if t.sync = .locked then 0 else t.interval }

/-- A block taken from the free list holds data at the tail of a stream (R128). -/
def State.stock (s : State) (i : StreamSlotId) (t : OpenStream) (d : List Byte) (b : BlockId) (rest : List BlockId) :
    State :=
  State.putStream
    { s with
      streams :=
        { s.streams with
          freeBlocks := rest, blocks := s.streams.blocks.set b (some { sequence := t.expected, data := d }) } }
    i (some (t.stored b))

/-- A property of states that each update a command makes keeps. -/
structure Kept (P : State → Prop) : Prop extends Closed P where
  chooseFrame : ∀ s, P s → P s.chooseFrame
  replyLeft : ∀ s, P s → P s.replyLeft
  reportSent : ∀ s, P s → P s.reportSent
  hold : ∀ s b, P s → P (s.hold b)
  countDiscard : ∀ s, P s → P s.countDiscard
  gapZero : ∀ s, P s → P { s with link := { s.link with receiver := { s.link.receiver with gap := 0 } } }
  heard : ∀ s, P s → P { s with link := s.link.heard }
  overrun : ∀ s, P s → P { s with link := { s.link with overruns := min (s.link.overruns + 1) 65535 } }
  again : ∀ s num code f e, s.link.replies.length < 2 → s.link.cached num code f = some e → P s →
    P { s with link := s.link.push num e.body false }
  reply : ∀ s num code f a, s.link.replies.length < 2 → P s → P (s.reply num code f a)
  stalled : ∀ s, P s → P { s with link := { s.link with session := .stalled } }
  goBack : ∀ s, s.reports.retry < 3 → P s → P { s with reports := s.reports.goBack }
  internalEdge : ∀ s, s.time.beatAsk = some .internal → P s → P { s with time := s.time.internalLength.movePosition }
  syncEdge : ∀ s, s.time.beatAsk = some .sync → P s → P { s with time := s.time.atSync }
  move : ∀ s, P s → P { s with time := s.time.movePosition }
  loss : ∀ s, s.time.lossFound = true → P s → P { s with time := s.time.atLoss }
  duckMove : ∀ s, P s → P { s with mixer := s.mixer.duckMove s.duckTarget }
  output : ∀ s sample, P s →
    P { s with
      mixer :=
        { s.mixer with
          value := mixValue (s.mixSum sample) s.mixer.masterFactor
          pwm := pwmOf s.mixer.outputMode (mixValue (s.mixSum sample) s.mixer.masterFactor) } }
  clockVoices : ∀ s, P s → P s.clockVoices
  advanced : ∀ s lines, P s → P (s.advance lines)
  powerOn : ∀ (s : State) straps, P (s.powerOn straps)
  resetKept : ∀ s cause straps, P s → P (s.resetKept cause straps)
  softAtReplyEnd : ∀ s, P s → P s.softAtReplyEnd
  sampleStraps : ∀ s straps, P s → P (s.sampleStraps straps)
  takeReset : ∀ s, P s → P s.takeReset
  pending : ∀ s q, P s → P { s with pending := q }
  linkOpen : ∀ f s, Request.linkOpen.check s.link.session f = none → P s → P (ownLinkOpen f s).1
  select : ∀ f s, P s → P (ownSelect f s).1
  ack : ∀ f s, P s → P (ownAck f s).1
  begin : ∀ f s, P s → P (ownBegin f s).1
  add : ∀ f s, P s → P (ownAdd f s).1
  finish : ∀ f s, P s → P (ownEnd f s).1
  drop : ∀ f s, P s → P (ownDrop f s).1
  mapWrite : ∀ f s, P s → P (ownMapWrite f s).1
  mapRestore : ∀ f s, P s → P (ownMapRestore f s).1
  outputSet : ∀ f s, Request.outputSet.check s.link.session f = none → P s → P (ownOutputSet f s).1
  timeSet : ∀ f s, Request.clockSet.check s.link.session f = none →
    s.time.beatAsk = none → P s → P { s with time := s.time.set f }
  barRestart : ∀ s, P s → P { s with time := { s.time with barRestart := true } }
  open_ : ∀ f s, Request.streamOpen.check s.link.session f = none → P s → P (ownOpen f s).1
  stock : ∀ s i t d b rest, s.stream i = some t → s.streams.freeBlocks = b :: rest → 0 < d.length → d.length ≤ 128 →
    P s → P (s.stock i t d b rest)

/-! ### What the owners leave alone -/

/-- The replies and the session are as they were: only the link's own requests touch them. -/
theorem closed_link (l : Link) : Closed fun t => t.link = l where
  offer _ _ h := by simpa using h
  sched _ _ h := h
  passes _ _ h := h
  putVoice _ _ _ h := by simpa using h
  refUp _ _ h := h
  refDown _ _ h := h
  stream _ _ _ _ h := h
  useHead _ _ _ _ _ _ _ h := h
  closeStream _ _ h := by simpa using h
  triggers _ _ h := h

/-- The time base is as it was: no update of `Closed` touches it. -/
theorem closed_time (x : TimeBase) : Closed fun t => t.time = x where
  offer _ _ h := by simpa using h
  sched _ _ h := h
  passes _ _ h := h
  putVoice _ _ _ h := by simpa using h
  refUp _ _ h := h
  refDown _ _ h := h
  stream _ _ _ _ h := h
  useHead _ _ _ _ _ _ _ h := h
  closeStream _ _ h := by simpa using h
  triggers _ _ h := h

/-- A taken beat edge changes the time base alone beside what `Closed` allows, and leaves no edge asked. -/
theorem takeInternalEdge_time (s : State) : s.takeInternalEdge.time = s.time.internalLength.movePosition :=
  (closed_time s.time.internalLength.movePosition).offer _ _ ((closed_time _).moveEntries _ _ _ rfl)

theorem takeSyncEdge_time (s : State) : s.takeSyncEdge.time = s.time.atSync.movePosition := by
  unfold State.takeSyncEdge
  refine (closed_time s.time.atSync.movePosition).offer _ _ ((closed_time _).moveEntries _ _ _ ?_)
  dsimp only
  split <;> rfl

theorem takeLoss_time (s : State) : s.takeLoss.time = if s.time.lossFound then s.time.atLoss else s.time := by
  unfold State.takeLoss
  split <;> rfl

theorem movePosition_beatAsk (t : TimeBase) : t.movePosition.beatAsk = none := rfl

theorem takeBeat_beatAsk (s : State) : s.takeBeat.time.beatAsk = none := by
  unfold State.takeBeat
  split
  · rw [takeInternalEdge_time]; rfl
  · rw [takeSyncEdge_time]; rfl
  · assumption

theorem takeBeat_source (s : State) : s.takeBeat.time.source = s.time.source := by
  unfold State.takeBeat
  split
  · rw [takeInternalEdge_time]
    simp only [TimeBase.movePosition, TimeBase.internalLength]
    split <;> rfl
  · rw [takeSyncEdge_time]
    simp only [TimeBase.movePosition, TimeBase.atSync, TimeBase.syncLength]
    split <;> rfl
  · rfl

theorem takeLoss_beatAsk (s : State) : s.takeLoss.time.beatAsk = s.time.beatAsk := by
  rw [takeLoss_time]
  split <;> rfl

namespace Closed

variable {P : State → Prop} (h : Closed P)
include h

theorem ownPlay (f : List Byte) (s : State) (hp : P s) : P (Machine.ownPlay f s).1 := by
  unfold Machine.ownPlay
  dsimp only
  split
  · exact hp
  · exact h.dueOwn _ _ (h.accept _ _ hp)

theorem removeSelected (s : State) (a : Addressed) (r : EndReason) (hp : P s) : P (s.removeSelected a r) :=
  foldl _ (fun s v hp => h.removeIncoming s v r hp) _ _ (foldl _ (fun s t hp => h.removeEntry s t r hp) _ _ hp)

theorem stopOne (c : Counted) (vt : VoiceId × Tag) (hp : P c.state) : P (c.stop vt).state := by
  unfold Counted.stop
  split
  · split
    · exact h.enterEnding _ _ _ hp
    · exact hp
  · exact hp

theorem cutOne (c : Counted) (vt : VoiceId × Tag) (hp : P c.state) : P (c.cut vt).state := by
  unfold Counted.cut
  split
  · exact h.endAtOnce _ _ _ hp
  · exact hp

theorem stopAddressed (s : State) (a : Addressed) (hp : P s) : P (s.stopAddressed a).1 := by
  unfold State.stopAddressed
  have k : ∀ (l : List (VoiceId × Tag)) (c : Counted), P c.state → P (l.foldl Counted.stop c).state := by
    intro l
    induction l with
    | nil => exact fun c hc => hc
    | cons x l ih => exact fun c hc => ih _ (h.stopOne c x hc)
  exact k _ _ (h.removeSelected _ _ _ hp)

theorem cutAddressed (s : State) (a : Addressed) (hp : P s) : P (s.cutAddressed a).1 := by
  unfold State.cutAddressed
  have k : ∀ (l : List (VoiceId × Tag)) (c : Counted), P c.state → P (l.foldl Counted.cut c).state := by
    intro l
    induction l with
    | nil => exact fun c hc => hc
    | cons x l ih => exact fun c hc => ih _ (h.cutOne c x hc)
  exact k _ _ (h.removeSelected _ _ _ hp)

theorem ownStop (f : List Byte) (s : State) (hp : P s) : P (Machine.ownStop f s).1 := by
  unfold Machine.ownStop State.stopTag
  repeat' split
  all_goals first
    | exact hp
    | exact h.removeEntry _ _ _ hp
    | exact h.removeIncoming _ _ _ hp
    | exact h.enterEnding _ _ _ hp
    | exact h.stopAddressed _ _ hp

theorem ownCut (f : List Byte) (s : State) (hp : P s) : P (Machine.ownCut f s).1 := by
  unfold Machine.ownCut State.cutTag
  repeat' split
  all_goals first
    | exact hp
    | exact h.removeEntry _ _ _ hp
    | exact h.removeIncoming _ _ _ hp
    | exact h.endAtOnce _ _ _ hp
    | exact h.cutAddressed _ _ hp

theorem adjustPlace (s : State) (p : Place) (v q : Option Nat) (hp : P s) : P (s.adjustPlace p v q) := by
  unfold State.adjustPlace
  split
  · exact h.sched _ _ hp
  · exact h.putVoice _ _ _ hp
  · exact h.putVoice _ _ _ hp

theorem ownAdjust (f : List Byte) (s : State) (hp : P s) : P (Machine.ownAdjust f s).1 := by
  unfold Machine.ownAdjust
  extract_lets tag volume priority
  split
  · exact hp
  split
  · exact hp
  split
  · exact hp
  split
  · exact hp
  dsimp only
  split
  · exact h.askPass _ (h.adjustPlace _ _ _ _ hp)
  · exact h.adjustPlace _ _ _ _ hp

omit h in
theorem ownQuery (f : List Byte) (s : State) (hp : P s) : P (Machine.ownQuery f s).1 := by
  unfold Machine.ownQuery
  dsimp only
  repeat' split
  all_goals exact hp

theorem ownReset (f : List Byte) (s : State) (hp : P s) : P (Machine.ownReset f s).1 := by
  unfold Machine.ownReset
  split
  · exact h.quietAll _ _ hp
  · exact hp

theorem ownStreamEnd (f : List Byte) (s : State) (hp : P s) : P (Machine.ownStreamEnd f s).1 := by
  unfold Machine.ownStreamEnd State.endData
  dsimp only
  split
  · exact hp
  split
  · exact hp
  rename_i i _ _ t e
  split
  · exact hp
  dsimp only
  split
  · exact h.askPass _ (h.putSome s i t _ e rfl rfl hp)
  split
  · exact h.resume _ _ _ t e rfl rfl hp
  · exact h.putSome s i t _ e rfl rfl hp

theorem ownAbort (f : List Byte) (s : State) (hp : P s) : P (Machine.ownAbort f s).1 := by
  unfold Machine.ownAbort State.abort
  dsimp only
  split
  · exact hp
  split
  · exact hp
  dsimp only
  repeat' split
  all_goals first
    | exact h.closeStream _ _ hp
    | exact h.endAtOnce _ _ _ hp
    | exact h.removeIncoming _ _ _ hp
    | exact h.removeEntry _ _ _ hp

theorem ownArm (f : List Byte) (s : State) (hp : P s) : P (Machine.ownArm f s).1 := by
  unfold Machine.ownArm
  split
  · exact hp
  · exact h.triggers _ _ hp

theorem ownDisarm (f : List Byte) (s : State) (hp : P s) : P (Machine.ownDisarm f s).1 := by
  unfold Machine.ownDisarm
  split
  · exact h.triggers _ _ hp
  · exact h.triggers _ _ hp

end Closed

theorem putStream_putStream (s : State) (i : StreamSlotId) (t u : Option OpenStream) :
    (s.putStream i t).putStream i u = s.putStream i u := by
  simp [State.putStream]

theorem resume_putStream (s : State) (i : StreamSlotId) (t : Option OpenStream) (u : OpenStream) :
    (s.putStream i t).resume i u = s.resume i u := by
  simp only [State.resume, putStream_putStream]

theorem stock_stream (s : State) (i : StreamSlotId) (t : OpenStream) (d : List Byte) (b : BlockId)
    (rest : List BlockId) : (s.stock i t d b rest).stream i = some (t.stored b) := by
  simp [State.stock, State.stream, State.putStream]

/-- A stored block is `State.stock`, and then at most a pass asked with the stream READY, or a resumption (R128). -/
theorem Closed.storeBlock {P : State → Prop} (h : Closed P) (s : State) (i : StreamSlotId) (t : OpenStream) (d : List Byte)
    (hp : P s)
    (hs : ∀ b rest, s.streams.freeBlocks = b :: rest → P (s.stock i t d b rest)) : P (s.storeBlock i t d) := by
  unfold State.storeBlock
  split
  · exact hp
  rename_i b rest e
  have k := hs b rest e
  have kt := stock_stream s i t d b rest
  dsimp only
  split
  · have := h.askPass _ (h.putSome _ i _ { t.stored b with state := .ready } kt rfl rfl k)
    rwa [State.stock, putStream_putStream] at this
  split
  · have := h.resume _ i (t.stored b) _ kt rfl rfl k
    rwa [State.stock, resume_putStream] at this
  · exact k

theorem storeBlock_link (s : State) (i : StreamSlotId) (t : OpenStream) (d : List Byte) :
    (s.storeBlock i t d).link = s.link :=
  (closed_link s.link).storeBlock s i t d rfl fun _ _ _ => rfl

end Sys2Proof.Machine
end

