-- ==== Sys2Proof/Laws/PerInstr.lean ====
section
/-! SUPPORT. The family BodyFits, one lemma for each command: a command that carries a request is well formed exactly when the
request's body, its code included, is at most 200 bytes long, which is what LEN may say (R155, R157). -/

namespace Sys2Proof.Laws

open Sys2Proof.Machine

/-- The command is well formed exactly when the body of the request it carries, if any, fits LEN. -/
def BodyFits.Statement (i : Instr) : Prop :=
  ∀ r num f, requestOf i = some (r, num, f) → (i.wf = true ↔ f.length + 1 ≤ 200)

/-- The bytes after the code fit where they and the code are at most 200. -/
theorem bodyFits_iff (k : Nat) (f : List Byte) : bodyFits k f = true ↔ k + f.length ≤ 200 :=
  decide_eq_true_iff

/-- BodyFits holds of every command. -/
theorem bodyFits_all (i : Instr) : BodyFits.Statement i := by
  intro r num f h
  cases i <;> simp only [requestOf, Option.some.injEq, Prod.mk.injEq, reduceCtorEq] at h <;> obtain ⟨rfl, rfl, rfl⟩ := h <;>
    simp only [Instr.wf, bodyFits_iff, List.length_cons] <;> omega

theorem BodyFits.powerOnReset (straps : Straps) : BodyFits.Statement (.powerOnReset straps) :=
  bodyFits_all _

theorem BodyFits.pinReset (straps : Straps) : BodyFits.Statement (.pinReset straps) :=
  bodyFits_all _

theorem BodyFits.softReset (straps : Straps) : BodyFits.Statement (.softReset straps) :=
  bodyFits_all _

theorem BodyFits.linkOpen (num : Byte) (fields : List Byte) : BodyFits.Statement (.linkOpen num fields) :=
  bodyFits_all _

theorem BodyFits.status (num : Byte) (fields : List Byte) : BodyFits.Statement (.status num fields) :=
  bodyFits_all _

theorem BodyFits.systemResetAudio (num : Byte) (rest : List Byte) : BodyFits.Statement (.systemResetAudio num rest) :=
  bodyFits_all _

theorem BodyFits.systemResetFull (num : Byte) (rest : List Byte) : BodyFits.Statement (.systemResetFull num rest) :=
  bodyFits_all _

theorem BodyFits.reportSelect (num : Byte) (fields : List Byte) : BodyFits.Statement (.reportSelect num fields) :=
  bodyFits_all _

theorem BodyFits.reportAck (num : Byte) (fields : List Byte) : BodyFits.Statement (.reportAck num fields) :=
  bodyFits_all _

theorem BodyFits.cuePlay (num : Byte) (fields : List Byte) : BodyFits.Statement (.cuePlay num fields) :=
  bodyFits_all _

theorem BodyFits.cueStop (num : Byte) (fields : List Byte) : BodyFits.Statement (.cueStop num fields) :=
  bodyFits_all _

theorem BodyFits.cueCut (num : Byte) (fields : List Byte) : BodyFits.Statement (.cueCut num fields) :=
  bodyFits_all _

theorem BodyFits.cueAdjust (num : Byte) (fields : List Byte) : BodyFits.Statement (.cueAdjust num fields) :=
  bodyFits_all _

theorem BodyFits.cueQuery (num : Byte) (fields : List Byte) : BodyFits.Statement (.cueQuery num fields) :=
  bodyFits_all _

theorem BodyFits.phraseBegin (num : Byte) (fields : List Byte) : BodyFits.Statement (.phraseBegin num fields) :=
  bodyFits_all _

theorem BodyFits.phraseAdd (num : Byte) (fields : List Byte) : BodyFits.Statement (.phraseAdd num fields) :=
  bodyFits_all _

theorem BodyFits.phraseEnd (num : Byte) (fields : List Byte) : BodyFits.Statement (.phraseEnd num fields) :=
  bodyFits_all _

theorem BodyFits.phraseDrop (num : Byte) (fields : List Byte) : BodyFits.Statement (.phraseDrop num fields) :=
  bodyFits_all _

theorem BodyFits.phraseInfo (num : Byte) (fields : List Byte) : BodyFits.Statement (.phraseInfo num fields) :=
  bodyFits_all _

theorem BodyFits.mapWrite (num : Byte) (fields : List Byte) : BodyFits.Statement (.mapWrite num fields) :=
  bodyFits_all _

theorem BodyFits.mapRead (num : Byte) (fields : List Byte) : BodyFits.Statement (.mapRead num fields) :=
  bodyFits_all _

theorem BodyFits.mapRestore (num : Byte) (fields : List Byte) : BodyFits.Statement (.mapRestore num fields) :=
  bodyFits_all _

theorem BodyFits.outputSet (num : Byte) (fields : List Byte) : BodyFits.Statement (.outputSet num fields) :=
  bodyFits_all _

theorem BodyFits.clockSet (num : Byte) (fields : List Byte) : BodyFits.Statement (.clockSet num fields) :=
  bodyFits_all _

theorem BodyFits.clockBar (num : Byte) (fields : List Byte) : BodyFits.Statement (.clockBar num fields) :=
  bodyFits_all _

theorem BodyFits.clockRead (num : Byte) (fields : List Byte) : BodyFits.Statement (.clockRead num fields) :=
  bodyFits_all _

theorem BodyFits.streamOpen (num : Byte) (fields : List Byte) : BodyFits.Statement (.streamOpen num fields) :=
  bodyFits_all _

theorem BodyFits.streamData (num : Byte) (fields : List Byte) : BodyFits.Statement (.streamData num fields) :=
  bodyFits_all _

theorem BodyFits.streamEnd (num : Byte) (fields : List Byte) : BodyFits.Statement (.streamEnd num fields) :=
  bodyFits_all _

theorem BodyFits.streamAbort (num : Byte) (fields : List Byte) : BodyFits.Statement (.streamAbort num fields) :=
  bodyFits_all _

theorem BodyFits.triggerArm (num : Byte) (fields : List Byte) : BodyFits.Statement (.triggerArm num fields) :=
  bodyFits_all _

theorem BodyFits.triggerDisarm (num : Byte) (fields : List Byte) : BodyFits.Statement (.triggerDisarm num fields) :=
  bodyFits_all _

theorem BodyFits.frameDiscard : BodyFits.Statement (.frameDiscard) :=
  bodyFits_all _

theorem BodyFits.frameAbandon : BodyFits.Statement (.frameAbandon) :=
  bodyFits_all _

theorem BodyFits.replySent : BodyFits.Statement (.replySent) :=
  bodyFits_all _

theorem BodyFits.reportFrameSent : BodyFits.Statement (.reportFrameSent) :=
  bodyFits_all _

theorem BodyFits.tickAdvance (lines : Lines) : BodyFits.Statement (.tickAdvance lines) :=
  bodyFits_all _

theorem BodyFits.dueEvent : BodyFits.Statement (.dueEvent) :=
  bodyFits_all _

theorem BodyFits.waitDeadline (tag : Tag) : BodyFits.Statement (.waitDeadline tag) :=
  bodyFits_all _

theorem BodyFits.allocationPass : BodyFits.Statement (.allocationPass) :=
  bodyFits_all _

theorem BodyFits.handoffComplete (voice : VoiceId) : BodyFits.Statement (.handoffComplete voice) :=
  bodyFits_all _

theorem BodyFits.releaseComplete (voice : VoiceId) : BodyFits.Statement (.releaseComplete voice) :=
  bodyFits_all _

theorem BodyFits.rateCountStep (voice : VoiceId) : BodyFits.Statement (.rateCountStep voice) :=
  bodyFits_all _

theorem BodyFits.stepEnd (voice : VoiceId) : BodyFits.Statement (.stepEnd voice) :=
  bodyFits_all _

theorem BodyFits.gateRunsOut (voice : VoiceId) : BodyFits.Statement (.gateRunsOut voice) :=
  bodyFits_all _

theorem BodyFits.duckStep : BodyFits.Statement (.duckStep) :=
  bodyFits_all _

theorem BodyFits.starveLimit (slot : StreamSlotId) : BodyFits.Statement (.starveLimit slot) :=
  bodyFits_all _

theorem BodyFits.internalBeatEdge : BodyFits.Statement (.internalBeatEdge) :=
  bodyFits_all _

theorem BodyFits.syncEdge : BodyFits.Statement (.syncEdge) :=
  bodyFits_all _

theorem BodyFits.syncLoss : BodyFits.Statement (.syncLoss) :=
  bodyFits_all _

theorem BodyFits.silenceTimeout : BodyFits.Statement (.silenceTimeout) :=
  bodyFits_all _

theorem BodyFits.retransmissionTimer : BodyFits.Statement (.retransmissionTimer) :=
  bodyFits_all _

theorem BodyFits.firingEvent (line : TrgLine) : BodyFits.Statement (.firingEvent line) :=
  bodyFits_all _

theorem BodyFits.outputSample : BodyFits.Statement (.outputSample) :=
  bodyFits_all _

theorem BodyFits.blockUsedUp : BodyFits.Statement (.blockUsedUp) :=
  bodyFits_all _

theorem BodyFits.noiseShift (voice : VoiceId) : BodyFits.Statement (.noiseShift voice) :=
  bodyFits_all _

theorem BodyFits.pinResetTaken : BodyFits.Statement (.pinResetTaken) :=
  bodyFits_all _

theorem BodyFits.byteReceived (byte : Byte) : BodyFits.Statement (.byteReceived byte) :=
  bodyFits_all _

end Sys2Proof.Laws
end

