-- ==== Sys2Proof/Laws/Step.lean ====
section
/-! SUPPORT. What a property kept by the updates of `Kept` gives: it is kept by every owner, by the taking of a request, by
every event, by every command and by every step. -/

namespace Sys2Proof.Machine

/-- A step takes the command at the front of the queue (log entry 4). -/
theorem step_cons (s : State) (c : Instr) (rest : List Instr) (h : s.pending = c :: rest) :
    step s = exec c { s with pending := rest } := by
  simp [step, h]

/-- The part idles on an empty queue (log entry 4). -/
theorem step_nil (s : State) (h : s.pending = []) : step s = .next s := by
  simp [step, h]

/-! ### Owners -/

theorem streamData_length (f : List Byte) (x : Session) (h : Request.streamData.check x f = none) :
    0 < (f.drop 3).length ∧ (f.drop 3).length ≤ 128 := by
  unfold Request.check at h
  have : Request.streamData.lengthOk f = true := by
    by_contra k
    rw [Bool.not_eq_true] at k
    simp only [k, Bool.not_false, if_true] at h
    cases h
  simp [Request.lengthOk] at this
  simp
  omega

/-- The owner of a request leaves the link alone, but for LINK.OPEN. -/
theorem own_link (r : Request) (f : List Byte) (s : State) : r = .linkOpen ∨ (r.own f s).1.link = s.link := by
  have c := closed_link s.link
  cases r with
  | linkOpen => exact .inl rfl
  | status => exact .inr rfl
  | systemReset => exact .inr (c.ownReset f s rfl)
  | reportSelect => exact .inr rfl
  | reportAck =>
    right
    simp only [Request.own, ownAck]
    split
    · rfl
    split <;> rfl
  | cuePlay => exact .inr (c.ownPlay f s rfl)
  | cueStop => exact .inr (c.ownStop f s rfl)
  | cueCut => exact .inr (c.ownCut f s rfl)
  | cueAdjust => exact .inr (c.ownAdjust f s rfl)
  | cueQuery => exact .inr (Closed.ownQuery (P := fun t => t.link = s.link) f s rfl)
  | phraseBegin => right; simp only [Request.own, ownBegin]; split; rfl; split <;> rfl
  | phraseAdd =>
    right
    simp only [Request.own, ownAdd]
    split
    · rfl
    split
    · rfl
    split
    · rfl
    split <;> rfl
  | phraseEnd => right; simp only [Request.own, ownEnd]; split; rfl; split <;> rfl
  | phraseDrop => right; simp only [Request.own, ownDrop]; split; rfl; split <;> rfl
  | phraseInfo => exact .inr rfl
  | mapWrite => right; simp only [Request.own, ownMapWrite]; split; rfl; split <;> rfl
  | mapRead => right; simp only [Request.own, ownMapRead]; split <;> rfl
  | mapRestore => right; simp only [Request.own, ownMapRestore]
  | outputSet =>
    right
    simp only [Request.own, ownOutputSet, State.duckStep]
    split
    · split <;> rfl
    · rfl
  | clockSet => exact .inr rfl
  | clockBar => exact .inr rfl
  | clockRead => exact .inr rfl
  | streamOpen => right; simp only [Request.own, ownOpen]; split; rfl; split <;> rfl
  | streamData =>
    right
    simp only [Request.own, ownData]
    split
    · rfl
    split
    · rfl
    split
    · rfl
    split
    · split
      · rfl
      · exact storeBlock_link _ _ _ _
    split <;> rfl
  | streamEnd => exact .inr (c.ownStreamEnd f s rfl)
  | streamAbort => exact .inr (c.ownAbort f s rfl)
  | triggerArm => exact .inr (c.ownArm f s rfl)
  | triggerDisarm => exact .inr (c.ownDisarm f s rfl)

/-! ### The choice of the next frame (R164, R177) -/

/-- All that the choice of a frame can do: nothing, or begin the oldest pending reply, or hand over a report. -/
theorem chooseFrame_cases (s : State) :
    s.chooseFrame = s ∨
    (∃ p rest, s.link.transmitter = .idle ∧ s.link.replies = p :: rest ∧
      s.chooseFrame = { s with link := { s.link with transmitter := .reply (frame typeReply p.num p.body) } }) ∨
    ∃ k r, s.link.transmitter = .idle ∧ s.link.replies = [] ∧ s.link.session = .opened ∧ s.link.silenceDue = false ∧
      s.timerDue = false ∧ s.reports.handOver = some (k, r) ∧
      s.chooseFrame =
        { s with
          reports := { s.reports with queue := s.reports.queue.set k r }
          link := { s.link with transmitter := .report (frame typeReport r.sequence r.body) } } := by
  unfold State.chooseFrame
  split
  · rename_i h
    split
    · rename_i p rest e
      exact .inr (.inl ⟨p, rest, h.1, e, rfl⟩)
    · rename_i e
      split
      · rename_i ho
        split
        · rename_i k r e'
          exact .inr (.inr ⟨k, r, h.1, e, ho.1, ho.2.1, ho.2.2, e', rfl⟩)
        · exact .inl rfl
      · exact .inl rfl
  · exact .inl rfl

/-- The choice of a frame changes nothing of the link but the transmitter. -/
theorem chooseFrame_link (s : State) : ∃ x, s.chooseFrame.link = { s.link with transmitter := x } := by
  obtain h | ⟨p, rest, -, -, h⟩ | ⟨k, r, -, -, -, -, -, -, h⟩ := chooseFrame_cases s <;> rw [h]
  exacts [⟨_, rfl⟩, ⟨_, rfl⟩, ⟨_, rfl⟩]

/-! ### What an advance has made due, taken first (R120, R140, R164) -/

/-- An event that leaves the link alone changes nothing of it but the transmitter when it is taken first. -/
theorem first_link (s : State) (due : Bool) (event : State → State) (h : (event s).link = s.link) :
    ∃ x, (s.first due event).link = { s.link with transmitter := x } := by
  unfold State.first
  split
  · obtain ⟨x, k⟩ := chooseFrame_link (event s)
    exact ⟨x, by rw [k, h]⟩
  · exact ⟨_, rfl⟩

theorem takeBeat_link (s : State) : s.takeBeat.link = s.link := by
  have c := closed_link s.link
  unfold State.takeBeat
  split
  · exact c.deliverBeat _ rfl
  · unfold State.takeSyncEdge
    dsimp only
    split
    · exact c.deliverBeat _ (by simp)
    · exact c.deliverBeat _ rfl
  · rfl

theorem takeLoss_link (s : State) : s.takeLoss.link = s.link := by
  unfold State.takeLoss
  split
  · simp
  · rfl

/-- What is taken first for an owner changes nothing of the link but the transmitter. -/
theorem ownerFirst_link (s : State) (r : Request) (f : List Byte) :
    ∃ x, (s.ownerFirst r f).link = { s.link with transmitter := x } := by
  have beat : ∃ x, s.beatFirst.link = { s.link with transmitter := x } := by
    unfold State.beatFirst
    obtain ⟨x, k⟩ := first_link s s.time.beatAsk.isSome State.takeBeat (takeBeat_link s)
    dsimp only
    generalize s.first s.time.beatAsk.isSome State.takeBeat = t at k
    obtain ⟨y, k2⟩ := first_link t t.time.lossFound State.takeLoss (takeLoss_link t)
    exact ⟨y, by rw [k2, k]⟩
  have limit : ∃ x, (s.limitFirst (u8 f 0)).link = { s.link with transmitter := x } := by
    unfold State.limitFirst
    split
    · exact first_link _ _ _ ((closed_link s.link).starveLimit _ _ rfl)
    · exact ⟨_, rfl⟩
  cases r with
  | clockSet => exact beat
  | clockBar => exact beat
  | clockRead => exact beat
  | streamData => exact limit
  | streamEnd => exact limit
  | _ => exact ⟨_, rfl⟩

/-- A request carried out changes nothing of the link but the transmitter, but for LINK.OPEN. -/
theorem carried_link (r : Request) (f : List Byte) (s : State) :
    r = .linkOpen ∨ ∃ x, (r.carried f s).1.link = { s.link with transmitter := x } := by
  obtain rfl | h := own_link r f (s.ownerFirst r f)
  · exact .inl rfl
  · obtain ⟨x, k⟩ := ownerFirst_link s r f
    exact .inr ⟨x, by rw [Request.carried, h, k]⟩

/-- A request carried out leaves the link's replies alone. -/
theorem carried_replies (r : Request) (f : List Byte) (s : State) :
    (r.carried f s).1.link.replies = s.link.replies := by
  obtain rfl | ⟨x, h⟩ := carried_link r f s
  · rfl
  · rw [h]

/-- The beat edge and the loss once taken first, no edge is asked. -/
theorem beatFirst_beatAsk (s : State) : s.beatFirst.time.beatAsk = none := by
  have c : ∀ t : State, t.chooseFrame.time = t.time := fun t => by simp
  unfold State.beatFirst State.first
  dsimp only
  split
  · split
    · rw [c, takeLoss_beatAsk, c, takeBeat_beatAsk]
    · rw [c, takeBeat_beatAsk]
  · rename_i h
    have k : s.time.beatAsk = none := by simpa using h
    split
    · rw [c, takeLoss_beatAsk, k]
    · exact k

namespace Kept

variable {P : State → Prop} (h : Kept P)
include h

theorem takeInternalEdge (s : State) (hb : s.time.beatAsk = some .internal) (hp : P s) : P s.takeInternalEdge :=
  h.toClosed.deliverBeat _ (h.internalEdge _ hb hp)

theorem takeSyncEdge (s : State) (hb : s.time.beatAsk = some .sync) (hp : P s) : P s.takeSyncEdge := by
  unfold State.takeSyncEdge
  have k := h.syncEdge s hb hp
  dsimp only
  refine h.toClosed.deliverBeat _ (h.move _ ?_)
  split
  · exact h.offer _ _ k
  · exact k

theorem takeBeat (s : State) (hp : P s) : P s.takeBeat := by
  unfold State.takeBeat
  split
  · exact h.takeInternalEdge _ ‹_› hp
  · exact h.takeSyncEdge _ ‹_› hp
  · exact hp

theorem takeLoss (s : State) (hp : P s) : P s.takeLoss := by
  unfold State.takeLoss
  split
  · exact h.offer _ _ (h.loss _ ‹_› hp)
  · exact hp

theorem stall (s : State) (hp : P s) : P s.stall := by
  unfold State.stall
  have k := h.stalled s hp
  split
  · exact h.toClosed.quietAll _ _ k
  · exact k

theorem silence (s : State) (hp : P s) : P s.silence := by
  unfold State.silence
  split
  · exact h.stall _ hp
  · exact hp

theorem retransmit (s : State) (hp : P s) : P s.retransmit := by
  unfold State.retransmit
  split
  · split
    · rename_i hr
      exact h.goBack _ hr hp
    · exact h.stall _ hp
  · exact hp

theorem first (s : State) (due : Bool) (event : State → State) (he : P s → P (event s)) (hp : P s) :
    P (s.first due event) := by
  unfold State.first
  split
  · exact h.chooseFrame _ (he hp)
  · exact hp

theorem linkFirst (s : State) (hp : P s) : P s.linkFirst :=
  h.first _ _ _ (h.retransmit _) (h.first _ _ _ (h.silence _) hp)

theorem ownerFirst (s : State) (r : Request) (f : List Byte) (hp : P s) : P (s.ownerFirst r f) := by
  have beat : P s.beatFirst := h.first _ _ _ (h.takeLoss _) (h.first _ _ _ (h.takeBeat _) hp)
  have limit : P (s.limitFirst (u8 f 0)) := by
    unfold State.limitFirst
    split
    · exact h.first _ _ _ (h.toClosed.starveLimit _ _) hp
    · exact hp
  cases r with
  | clockSet => exact beat
  | clockBar => exact beat
  | clockRead => exact beat
  | streamData => exact limit
  | streamEnd => exact limit
  | _ => exact hp

/-- Every owner of a request that passed the common checks. -/
theorem own (r : Request) (f : List Byte) (s : State) (hc : r.check s.link.session f = none)
    (hb : r = .clockSet → s.time.beatAsk = none) (hp : P s) : P (r.own f s).1 := by
  cases r with
  | linkOpen => exact h.linkOpen f s hc hp
  | status => exact hp
  | systemReset => exact h.toClosed.ownReset f s hp
  | reportSelect => exact h.select f s hp
  | reportAck => exact h.ack f s hp
  | cuePlay => exact h.toClosed.ownPlay f s hp
  | cueStop => exact h.toClosed.ownStop f s hp
  | cueCut => exact h.toClosed.ownCut f s hp
  | cueAdjust => exact h.toClosed.ownAdjust f s hp
  | cueQuery => exact Closed.ownQuery f s hp
  | phraseBegin => exact h.begin f s hp
  | phraseAdd => exact h.add f s hp
  | phraseEnd => exact h.finish f s hp
  | phraseDrop => exact h.drop f s hp
  | phraseInfo => exact hp
  | mapWrite => exact h.mapWrite f s hp
  | mapRead => simp only [Request.own, ownMapRead]; split <;> exact hp
  | mapRestore => exact h.mapRestore f s hp
  | outputSet => exact h.outputSet f s hc hp
  | clockSet => exact h.timeSet f s hc (hb rfl) hp
  | clockBar => exact h.barRestart _ hp
  | clockRead => exact hp
  | streamOpen => exact h.open_ f s hc hp
  | streamData =>
    have hl := streamData_length f _ hc
    simp only [Request.own, ownData]
    split
    · exact hp
    split
    · exact hp
    rename_i i _ _ t e
    split
    · exact hp
    split
    · split
      · exact hp
      · exact h.toClosed.storeBlock _ _ _ _ hp fun b rest hb => h.stock _ _ _ _ _ _ e hb hl.1 hl.2 hp
    split <;> exact hp
  | streamEnd => exact h.toClosed.ownStreamEnd f s hp
  | streamAbort => exact h.toClosed.ownAbort f s hp
  | triggerArm => exact h.toClosed.ownArm f s hp
  | triggerDisarm => exact h.toClosed.ownDisarm f s hp

/-- Every request that passed the common checks. -/
theorem carried (r : Request) (f : List Byte) (s : State) (hc : r.check s.link.session f = none) (hp : P s) :
    P (r.carried f s).1 := by
  obtain ⟨x, k⟩ := ownerFirst_link s r f
  refine h.own r f _ (by rw [k]; exact hc) (fun e => ?_) (h.ownerFirst s r f hp)
  subst e
  exact beatFirst_beatAsk s

/-! ### Taking requests -/

theorem takeNow (s : State) (num code : Byte) (f : List Byte) (answer : State → State × Answer)
    (ha : ∀ s, P s → P (answer s).1) (hr : ∀ s, (answer s).1.link.replies = s.link.replies) (hp : P s) :
    P (s.takeNow num code f answer) := by
  unfold State.takeNow
  have k := h.heard s hp
  dsimp only
  split
  · exact h.overrun _ k
  rename_i hl
  have hl : s.link.replies.length < 2 := by simpa [Config.pendingReplyLimit] using hl
  split
  · rename_i e he
    exact h.again { s with link := s.link.heard } num code f e hl he k
  · exact h.reply _ _ _ _ _ (by rw [hr]; exact hl) (ha _ k)

theorem take (s : State) (num code : Byte) (f : List Byte) (answer : State → State × Answer)
    (ha : ∀ s, P s → P (answer s).1) (hr : ∀ s, (answer s).1.link.replies = s.link.replies) (hp : P s) :
    P (s.take num code f answer) :=
  h.takeNow _ _ _ _ _ ha hr (h.linkFirst _ hp)

theorem takeRequest (s : State) (r : Request) (num : Byte) (f : List Byte) (hp : P s) :
    P (s.takeRequest r r.carried num f) := by
  refine h.take _ _ _ _ _ ?_ ?_ hp
  · intro s hp
    unfold checked
    split
    · exact hp
    · rename_i hc
      exact h.carried r f s hc hp
  · intro s
    unfold checked
    split
    · rfl
    · exact carried_replies r f s

theorem takeFrame (s : State) (num : Byte) (body : List Byte) (hp : P s) : P (s.takeFrame num body) := by
  unfold State.takeFrame
  split
  · exact h.take _ _ _ _ _ (fun _ hp => hp) (fun _ => rfl) hp
  · split
    · exact h.takeRequest _ _ _ _ hp
    · exact h.take _ _ _ _ _ (fun _ hp => hp) (fun _ => rfl) hp

theorem receive (a : Bool) (n : Nat) (held input : List Byte) (s : State) (hp : P s) :
    P (State.receive a n held input s) := by
  induction n generalizing held input s with
  | zero => exact h.hold _ _ hp
  | succ n ih =>
    cases input with
    | nil =>
      cases held with
      | nil => exact h.hold _ _ hp
      | cons b rest =>
        simp only [State.receive]
        split
        · exact ih _ _ _ (h.countDiscard _ hp)
        · exact h.hold _ _ hp
    | cons b input =>
      simp only [State.receive]
      split
      · split <;> exact ih _ _ _ hp
      · split
        · exact ih _ _ _ hp
        · exact ih _ _ _ (h.countDiscard _ (h.hold _ _ hp))
        · exact ih _ _ _ (h.takeFrame _ _ _ hp)

theorem discardFrame (s : State) (a : Bool) (hp : P s) : P (s.discardFrame a) := by
  unfold State.discardFrame
  split
  · exact hp
  · exact h.receive _ _ _ _ _ (h.countDiscard _ hp)

theorem abandonFrame (s : State) (hp : P s) : P s.abandonFrame := by
  unfold State.abandonFrame
  split
  · exact h.discardFrame _ _ hp
  · exact hp

theorem byteIn (s : State) (b : Byte) (hp : P s) : P (s.byteIn b) := by
  have k := h.abandonFrame s hp
  unfold State.byteIn State.takeByte
  generalize s.abandonFrame = s at k
  dsimp only
  apply h.receive
  split
  · exact k
  · exact h.gapZero _ k

theorem replySent (s : State) (hp : P s) : P s.replySent := by
  unfold State.replySent
  split
  · exact h.softAtReplyEnd _ hp
  split
  · exact h.replyLeft _ hp
  · exact hp

/-! ### Events, the tick and the output sample -/

theorem carry (s : State) (e : Event) (hs : s.stands e = true) (hp : P s) : P (s.carry e) := by
  cases e with
  | pass => exact h.toClosed.pass _ (h.passes _ _ hp)
  | due => exact h.toClosed.dueEvent _ hp
  | internalEdge => exact h.takeInternalEdge _ (by simpa [State.stands] using hs) hp
  | syncEdge => exact h.takeSyncEdge _ (by simpa [State.stands] using hs) hp
  | loss => exact h.takeLoss _ hp
  | firing l => exact h.toClosed.fire _ _ hp
  | rate v => exact h.toClosed.rateStep _ _ hp
  | gate v => exact h.toClosed.gateEnd _ _ hp
  | stepEnd v => exact h.toClosed.stepOver _ _ hp
  | handoff v => exact h.toClosed.handOver _ _ hp
  | release v => exact h.toClosed.endToIdle _ _ hp
  | deadline t => exact h.toClosed.deadline _ _ hp
  | starve i => exact h.toClosed.starveLimit _ _ hp
  | duck => simp only [State.carry, State.duckStep]; split; exact h.duckMove _ hp; exact hp
  | abandon => exact h.abandonFrame _ hp
  | silence => exact h.silence _ hp
  | retransmit => exact h.retransmit _ hp

theorem happen (e : Event) (s : State) (hp : P s) : P (State.happen e s) := by
  unfold State.happen
  split
  · exact h.carry _ _ ‹_› hp
  · exact hp

theorem settle (n : Nat) (s : State) (hp : P s) : P (s.settle n) := by
  induction n generalizing s with
  | zero => exact hp
  | succ n ih =>
    unfold State.settle
    split
    · rename_i e he
      exact ih _ (h.chooseFrame _ (h.carry _ _ (List.find?_some he) hp))
    · exact hp

theorem tick (s : State) (lines : Lines) (hp : P s) : P (s.tick lines) :=
  h.advanced _ lines (h.settle Config.settleFuel s hp)

theorem sampleOutput (s : State) (hp : P s) : P s.sampleOutput := by
  unfold State.sampleOutput
  have k := h.clockVoices _ (h.toClosed.finishBlock _ hp)
  have k2 : P s.finishBlock.clockVoices.takeSample.2 := by
    generalize s.finishBlock.clockVoices = t at k
    unfold State.takeSample
    split
    · split
      · rename_i u e
        split
        · exact h.toClosed.putSome _ _ u _ e rfl rfl k
        · exact k
      · exact k
    · exact k
  exact h.output _ _ k2

/-! ### Commands and steps -/

theorem act (s t : State) (f : State → State) (hf : ∀ s, P s → P (f s)) (e : s.act f = .next t) (hp : P s) : P t := by
  unfold State.act at e
  obtain rfl := Host.Outcome.next.inj e
  split
  · exact hp
  · exact h.chooseFrame _ (hf _ hp)

/-- A property that every update keeps is kept by every command. -/
theorem exec (i : Instr) (s t : State) (e : Machine.exec i s = .next t) (hp : P s) : P t := by
  have req : ∀ r num f, s.request r num f = .next t → P t := fun r num f e =>
    h.act s t _ (fun s hp => h.takeRequest _ r num f (h.abandonFrame s hp)) e hp
  have ev : ∀ x, s.event x = .next t → P t := fun x e => h.act s t _ (fun s hp => h.happen x s hp) e hp
  cases i with
  | powerOnReset st => obtain rfl := Host.Outcome.next.inj e; exact h.powerOn _ _
  | pinReset st => obtain rfl := Host.Outcome.next.inj e; exact h.resetKept _ _ _ hp
  | softReset st =>
    refine h.act s t (fun u => u.softReset st) (fun u hu => ?_) e hp
    simp only [State.softReset]
    split
    · exact h.resetKept _ _ _ hu
    split
    · exact h.sampleStraps _ _ hu
    · exact hu
  | pinResetTaken => obtain rfl := Host.Outcome.next.inj e; exact h.takeReset _ hp
  | frameDiscard => exact h.act s t _ (fun s hp => h.discardFrame _ _ (h.abandonFrame s hp)) e hp
  | replySent => exact h.act s t _ (fun s hp => h.replySent s hp) e hp
  | reportFrameSent => exact h.act s t _ (fun s hp => h.reportSent s hp) e hp
  | tickAdvance l => exact h.act s t _ (fun s hp => h.tick s l hp) e hp
  | outputSample => exact h.act s t _ (fun s hp => h.sampleOutput s hp) e hp
  | blockUsedUp => exact h.act s t _ (fun s hp => h.toClosed.finishBlock s hp) e hp
  | noiseShift v => exact h.act s t _ (fun s hp => h.putVoice s _ _ hp) e hp
  | byteReceived b => exact h.act s t _ (fun s hp => h.byteIn s b hp) e hp
  | frameAbandon => exact ev _ e
  | dueEvent => exact ev _ e
  | waitDeadline => exact ev _ e
  | allocationPass => exact ev _ e
  | handoffComplete => exact ev _ e
  | releaseComplete => exact ev _ e
  | rateCountStep => exact ev _ e
  | stepEnd => exact ev _ e
  | gateRunsOut => exact ev _ e
  | duckStep => exact ev _ e
  | starveLimit => exact ev _ e
  | internalBeatEdge => exact ev _ e
  | syncEdge => exact ev _ e
  | syncLoss => exact ev _ e
  | silenceTimeout => exact ev _ e
  | retransmissionTimer => exact ev _ e
  | firingEvent => exact ev _ e
  | linkOpen => exact req _ _ _ e
  | status => exact req _ _ _ e
  | systemResetAudio => exact req _ _ _ e
  | systemResetFull => exact req _ _ _ e
  | reportSelect => exact req _ _ _ e
  | reportAck => exact req _ _ _ e
  | cuePlay => exact req _ _ _ e
  | cueStop => exact req _ _ _ e
  | cueCut => exact req _ _ _ e
  | cueAdjust => exact req _ _ _ e
  | cueQuery => exact req _ _ _ e
  | phraseBegin => exact req _ _ _ e
  | phraseAdd => exact req _ _ _ e
  | phraseEnd => exact req _ _ _ e
  | phraseDrop => exact req _ _ _ e
  | phraseInfo => exact req _ _ _ e
  | mapWrite => exact req _ _ _ e
  | mapRead => exact req _ _ _ e
  | mapRestore => exact req _ _ _ e
  | outputSet => exact req _ _ _ e
  | clockSet => exact req _ _ _ e
  | clockBar => exact req _ _ _ e
  | clockRead => exact req _ _ _ e
  | streamOpen => exact req _ _ _ e
  | streamData => exact req _ _ _ e
  | streamEnd => exact req _ _ _ e
  | streamAbort => exact req _ _ _ e
  | triggerArm => exact req _ _ _ e
  | triggerDisarm => exact req _ _ _ e

/-- A property that every update keeps is kept by every step. -/
theorem step (s t : State) (e : Machine.step s = .next t) (hp : P s) : P t := by
  cases hq : s.pending with
  | nil =>
    rw [step_nil s hq] at e
    exact Host.Outcome.next.inj e ▸ hp
  | cons c rest =>
    rw [step_cons s c rest hq] at e
    exact h.exec c _ _ e (h.pending _ _ hp)

end Kept

end Sys2Proof.Machine
end

