-- ==== Sys2Proof/Laws/Requests.lean ====
section
/-! SUPPORT. What a request row answers, said once: a request that is taken and passes the common checks is its owner's effect
and answer, and the command of each request row is that request. -/

namespace Sys2Proof.Machine

/-- The command of a request row is the request it carries. -/
theorem exec_request (c : Instr) (s : State) (r : Request) (num : Byte) (f : List Byte)
    (h : requestOf c = some (r, num, f)) : exec c s = s.request r num f := by
  cases c <;> simp only [requestOf, Option.some.injEq, Prod.mk.injEq, reduceCtorEq] at h <;> obtain ⟨rfl, rfl, rfl⟩ := h <;> rfl

theorem heard_heard (l : Link) : l.heard.heard = l.heard := rfl

/-- After the request is carried out, the silence count still stands at 0. -/
theorem carried_heard (r : Request) (f : List Byte) (s : State) :
    (r.carried f s.heard).1.heard = (r.carried f s.heard).1 := by
  obtain rfl | ⟨x, h⟩ := carried_link r f s.heard
  · rfl
  · have k : (r.carried f s.heard).1.link.heard = (r.carried f s.heard).1.link := by rw [h]; rfl
    unfold State.heard at *
    rw [k]

theorem abandonFrame_idle (s : State) (h : s.link.abandonDue = false) : s.abandonFrame = s := by
  simp [State.abandonFrame, h]

theorem linkFirst_idle (s : State) (h : s.link.silenceDue = false) (h2 : s.timerDue = false) : s.linkFirst = s := by
  simp [State.linkFirst, State.first, h, h2]

/-- With nothing due there is nothing to take first. -/
theorem caughtUp_prompt (s : State) (h : s.overdue = false) : s.caughtUp = s := by
  simp only [State.overdue, Bool.or_eq_false_iff] at h
  rw [State.caughtUp, abandonFrame_idle s h.1.1, linkFirst_idle s h.1.2 h.2]

theorem State.Takes.notAbandoned {s : State} {r : Request} {num : Byte} {f : List Byte} (h : s.Takes r num f) :
    s.link.abandonDue = false :=
  (Bool.or_eq_false_iff.mp (Bool.or_eq_false_iff.mp h.prompt).1).1

theorem State.Takes.notStalled {s : State} {r : Request} {num : Byte} {f : List Byte} (h : s.Takes r num f) :
    s.link.silenceDue = false :=
  (Bool.or_eq_false_iff.mp (Bool.or_eq_false_iff.mp h.prompt).1).2

theorem State.Takes.notExpired {s : State} {r : Request} {num : Byte} {f : List Byte} (h : s.Takes r num f) :
    s.timerDue = false :=
  (Bool.or_eq_false_iff.mp h.prompt).2

/-- A request that is taken and not answered from the cache is answered by the common checks or by its owner. -/
theorem request_taken (s : State) (r : Request) (num : Byte) (f : List Byte) (h : s.Takes r num f) :
    s.request r num f =
      .next ((State.reply (checked r r.carried f s.heard).1 num r.code f (checked r r.carried f s.heard).2).chooseFrame) := by
  have h2 : ¬ Config.pendingReplyLimit ≤ s.link.replies.length := Nat.not_le.mpr h.room
  unfold State.request State.act
  rw [h.running]
  beta_reduce
  rw [abandonFrame_idle s h.notAbandoned]
  simp only [Bool.false_eq_true, if_false, State.takeRequest, State.take,
    linkFirst_idle s h.notStalled h.notExpired, State.takeNow, h2, h.fresh]
  rfl

/-- A request that is taken and passes the common checks is its owner's effect and answer (R161 step 4). -/
theorem request_passes (s : State) (r : Request) (num : Byte) (f : List Byte) (h : s.Passes r num f) :
    s.request r num f = .next (State.answered (r.carried f s.heard).1 r num f (r.carried f s.heard).2) := by
  rw [request_taken s r num f h.toTakes]
  have k : checked r r.carried f s.heard = r.carried f s.heard := by
    have : r.check s.heard.link.session f = none := h.checks
    simp only [checked, this]
  rw [k, State.answered, carried_heard]

/-- A request refused by the common checks changes nothing but the link (R186). -/
theorem request_refused (s : State) (r : Request) (num : Byte) (f : List Byte) (a : Answer) (h : s.Takes r num f)
    (hc : r.check s.link.session f = some a) : s.request r num f = .next (State.answered s r num f a) := by
  rw [request_taken s r num f h]
  have k : checked r r.carried f s.heard = (s.heard, a) := by
    have : r.check s.heard.link.session f = some a := hc
    simp only [checked, this]
  rw [k]
  rfl

/-- An event that stands, at a part that is not in reset, has its effect. -/
theorem event_stands (s : State) (e : Event) (hr : s.inReset = false) (h : s.stands e = true) :
    s.event e = .next (s.carry e).chooseFrame := by
  simp [State.event, State.act, hr, State.happen, h]

/-- An event that does not stand leaves the block as it was (log entry 2). -/
theorem event_idle (s : State) (e : Event) (hr : s.inReset = false) (h : s.stands e = false) :
    s.event e = .next s.chooseFrame := by
  simp [State.event, State.act, hr, State.happen, h]

end Sys2Proof.Machine
end

