-- ==== Sys2Proof/Tests/Slice0.lean ====
section
/-! SUPPORT. Tests: the well-formedness checks, values the data sheet prints, single commands on small states, and for each
statement of the certificate a state and operands that meet its hypotheses. -/

namespace Sys2Proof.Tests

open Sys2Proof.Machine

set_option Elab.async false

/-! ### Small states -/

/-- After reset with the session OPEN. -/
def opened : State :=
  { State.reset with link := { State.reset.link with session := .opened } }

/-- The state a command leaves, or `s` itself. -/
def after (c : Instr) (s : State) : State :=
  match exec c s with
  | .next t => t
  | _ => s

/-- A tone cue of tag 7, group 2, priority 3, volume 10. -/
def tone7 : Cue :=
  { tag := 7, source := .tone 69 100 .square, priority := 3, group := 2, volume := 10, start := .now, quantize := .off,
    window := 5, repeats := 1, exclusive := false, duck := false, rates := some { attack := 0, release := 4 },
    acceptance := 0, due := 0, deadline := none, endReason := none }

/-- The same of tag 8 and priority 5. -/
def tone8 : Cue :=
  { tone7 with tag := 8, priority := 5 }

/-- A cue of phrase 3 with tag 9. -/
def phrase9 : Cue :=
  { tone7 with tag := 9, source := .phrase 3, rates := none }

/-- A cue of stream 1 with tag 6, ducking. -/
def stream6 : Cue :=
  { tone7 with tag := 6, source := .stream 1, rates := none, duck := true }

/-- A schedule of one cue. -/
def scheduled (c : Cue) (st : EntryState) : State :=
  { opened with sched := { opened.sched with entries := [{ cue := c, state := st }], live := [c.tag], counter := 1 } }

/-- A player in its only note. -/
def inNote : Player :=
  { top := none, call := none, stepTicks := some 100, gateTicks := some 100, stepVolume := some 15, repeatsLeft := 1,
    shape := .square, period := 1745, legato := true, rates := { attack := 0, release := 4 } }

/-- A synth voice that plays a cue at level 10. -/
def sounding (c : Cue) : Voice :=
  { state := .active, current := some { cue := c, startTick := 0 }, releaseMode := none, incoming := none,
    env := { phase := .hold, level := 10, target := 10, rateCount := 0 }, player := some inNote,
    osc := some { phaseCount := 0, noise := BitVec.allOnes 15, clocks := 0 } }

/-- Voice 0 as given, with these live tags. -/
def onVoice0 (r : Voice) (live : List Tag) : State :=
  { opened with
    alloc := { opened.alloc with voices := opened.alloc.voices.set 0 r }
    sched := { opened.sched with live := live } }

/-- Tag 7 plays on voice 0. -/
def playing7 : State :=
  onVoice0 (sounding tone7) [7]

/-- Tag 7 is ending on voice 0. -/
def ending7 (level : Nat) : State :=
  onVoice0
    { sounding { tone7 with endReason := some .stopped } with
      state := .ending, releaseMode := some .normal
      env := { phase := .release, level := level, target := 10, rateCount := 0 } }
    [7]

/-- Tag 8 waits in the incoming place of voice 0, tag 7 departing. -/
def handoff78 (level : Nat) : State :=
  onVoice0
    { sounding { tone7 with endReason := some .stolen } with
      state := .handoff, releaseMode := some .fast, incoming := some tone8
      env := { phase := .release, level := level, target := 10, rateCount := 0 } }
    [7, 8]

/-- A READY phrase 3 of one NOTE in page 0, with a reference count. -/
def withPhrase3 (st : PhraseState) (refs : Nat) (step : Step) (s : State) : State :=
  { s with
    store :=
      { slots :=
          s.store.slots.set 3
            { state := st
              header := some { shape := .square, rates := { attack := 2, release := 1 }, tempoRelative := false }
              stepCount := 1, pages := [0], refs := refs }
        pool := s.store.pool.set 0 ((Vector.replicate 16 none).set 0 (some step))
        freePages := s.store.freePages.tail
        build := if st = .building then some 3 else none } }

/-- One NOTE of gate 8. -/
def note69 : Step :=
  .note 69 12 15 8

/-- Stream 1 in slot 0, bound to tag 6, with one block of one byte. -/
def stream1 (st : StreamState) : OpenStream :=
  { state := st, id := 1, rate := 3, prefill := 1, policy := .pause, expected := 1, last := false, filled := [0],
    bound := some 6, read := some { index := 0, holdCount := 0 }, starve := none }

/-- A stream in slot 0 of a state, its block 0 holding one byte. -/
def withStream (t : OpenStream) (s : State) : State :=
  { s with
    streams :=
      { slots := s.streams.slots.set 0 (some t)
        blocks := if t.filled = [] then s.streams.blocks else s.streams.blocks.set 0 (some { sequence := 0, data := [200] })
        freeBlocks := if t.filled = [] then s.streams.freeBlocks else s.streams.freeBlocks.tail } }

/-- The stream cue of tag 6 plays on voice 6. -/
def streaming (t : OpenStream) : State :=
  withStream t
    { opened with
      alloc :=
        { opened.alloc with
          voices :=
            opened.alloc.voices.set 6 { sounding stream6 with player := none, osc := none } }
      sched := { opened.sched with live := [6] } }

/-- The bytes after the code of a CUE.PLAY: tag 7, a tone of note 69 for 100 ticks, group 2, priority 3, volume 10. -/
def playTone : List Byte :=
  [0, 7, 1, 69, 0, 100, 0, 3, 2, 10, 0, 0, 0, 0, 0, 0, 0, 5, 1, 0, 0, 0]

/-- The same for phrase 3, tag 9. -/
def playPhrase : List Byte :=
  [0, 9, 0, 3, 0, 0, 0, 3, 2, 10, 0, 0, 0, 0, 0, 0, 0, 5, 1, 0, 0, 0]

/-- The same for stream 1, tag 6. -/
def playStream : List Byte :=
  [0, 6, 3, 1, 0, 0, 0, 3, 2, 10, 0, 0, 0, 0, 0, 0, 0, 5, 1, 0, 0, 0]

/-! ### Checkers with their meaning -/

/-- A request is taken, by computation. -/
def takesB (s : State) (r : Request) (num : Byte) (f : List Byte) : Bool :=
  decide (s.inReset = false) && decide (s.overdue = false) &&
    decide (s.link.replies.length < Config.pendingReplyLimit) && decide (s.link.cached num r.code f = none)

theorem takes_of {s : State} {r : Request} {num : Byte} {f : List Byte} (h : takesB s r num f = true) :
    s.Takes r num f := by
  simp only [takesB, Bool.and_eq_true, decide_eq_true_eq] at h
  exact ⟨h.1.1.1, h.1.1.2, h.1.2, h.2⟩

/-- A request is taken and passes the common checks, by computation. -/
def passesB (s : State) (r : Request) (num : Byte) (f : List Byte) : Bool :=
  takesB s r num f && decide (r.check s.link.session f = none)

theorem passes_of {s : State} {r : Request} {num : Byte} {f : List Byte} (h : passesB s r num f = true) :
    s.Passes r num f := by
  simp only [passesB, Bool.and_eq_true, decide_eq_true_eq] at h
  exact ⟨takes_of h.1, h.2⟩

/-- A voice record agrees with its state, by computation. -/
def voiceB (v : VoiceId) (r : Voice) : Bool :=
  (match r.state, r.current, r.incoming, r.releaseMode with
    | .idle, _, _, _ => decide (r = Voice.idle)
    | .active, some _, none, none => true
    | .ending, some k, none, some _ => k.cue.endReason.isSome
    | .handoff, some k, some c, some .fast =>
      decide (k.cue.endReason = some .stolen) && decide (k.cue.priority < c.priority)
    | _, _, _, _ => false) &&
    (r.current.all fun k => k.cue.source.voices.contains v) && r.incoming.all fun c => c.source.voices.contains v

theorem voice_of {v : VoiceId} {r : Voice} (h : voiceB v r = true) : r.Ok v := by
  obtain ⟨st, cur, rm, inc, env, p, o⟩ := r
  simp only [voiceB, Bool.and_eq_true] at h
  obtain ⟨⟨h1, h2⟩, h3⟩ := h
  refine ⟨?_, ?_, ?_⟩
  · cases st <;> rcases cur with _ | k <;> rcases inc with _ | c <;> rcases rm with _ | _ | _ <;> simp_all
  · intro k hk
    simp only at hk
    subst hk
    simpa using h2
  · intro c hc
    simp only at hc
    subst hc
    simpa using h3

/-- The placing of cues, by computation. -/
def placedB (s : State) : Bool :=
  (allVoices.all fun v => voiceB v (s.voice v)) && decide s.sched.live.Nodup && decide (s.heldTags.Perm s.sched.live) &&
    (List.finRange 32).all fun id : PhraseId =>
      decide
          ((s.phrase id).refs =
            (s.sched.entries.map fun e => e.cue.names id).sum + (allVoices.map fun v => (s.voice v).names id).sum) &&
        (decide ((s.phrase id).refs = 0) || decide ((s.phrase id).state = .ready))

theorem placed_of {s : State} (h : placedB s = true) : s.Placed := by
  simp only [placedB, Bool.and_eq_true, List.all_eq_true, decide_eq_true_eq, Bool.or_eq_true] at h
  obtain ⟨⟨⟨h1, h2⟩, h3⟩, h4⟩ := h
  refine ⟨fun v => voice_of (h1 v ?_), ⟨h2, h3⟩, fun id => ⟨(h4 id (List.mem_finRange id)).1, fun h => ?_⟩⟩
  · fin_cases v <;> simp [allVoices]
  · exact (h4 id (List.mem_finRange id)).2.resolve_left h

/-- A command answers a next state that passes a check. -/
def gives (c : Instr) (s : State) (f : State → Bool) : Bool :=
  match exec c s with
  | .next t => f t
  | _ => false

/-- The bodies of the pending replies after a command. -/
def replies (c : Instr) (s : State) (bodies : List (List Byte)) : Bool :=
  gives c s fun t => t.link.replies.map (·.body) == bodies

/-- The kinds of the queued reports after a command. -/
def reports (c : Instr) (s : State) (kinds : List ReportKind) : Bool :=
  gives c s fun t => t.reports.queue.map (·.kind) == kinds

/-! ### The well-formedness checks refuse what they should -/

/-- A body of 201 bytes does not fit LEN (R155). -/
theorem test_wf_body : (Instr.streamData 1 (List.replicate 200 0)).wf = false := by decide +kernel

/-- A body of 200 bytes does. -/
theorem test_wf_body_fits : (Instr.streamData 1 (List.replicate 199 0)).wf = true := by decide +kernel

/-- The scope byte counts too. -/
theorem test_wf_scope : (Instr.systemResetAudio 1 (List.replicate 199 0)).wf = false := by decide +kernel

/-- No cue carries tag 0 (00_scope.md, Conventions). -/
theorem test_wf_tag : (Instr.waitDeadline 0).wf = false := by decide +kernel

/-- Voice 6 has no player and no oscillator (R27, R28). -/
theorem test_wf_synth :
    (Instr.stepEnd 6).wf = false ∧ (Instr.gateRunsOut 6).wf = false ∧ (Instr.noiseShift 6).wf = false := by decide +kernel

/-! ### Values the data sheet prints -/

/-- R156: the check of the ASCII digits 1 to 9. -/
theorem test_crc : crc [0x31, 0x32, 0x33, 0x34, 0x35, 0x36, 0x37, 0x38, 0x39] = 0x29B1#16 := by decide +kernel

/-- R90: default periods of the table. -/
theorem test_default_map :
    defaultPitchMap[(69 : Note)] = 1745 ∧ defaultPitchMap[(127 : Note)] = 61 ∧ defaultPitchMap[(0 : Note)] = 65535 ∧
      defaultPitchMap[(6 : Note)] = 65535 := by decide +kernel

/-- R175, R190: every kind but BEAT. -/
theorem test_reset_mask : State.reset.reports.mask = 0x1FF7#16 := by decide +kernel

/-- R189: the two letters of the codes of 11.8 at their ends. -/
theorem test_status_codes : Status.code .ok = 0 ∧ Status.code .outOfOrder = 0x15#8 ∧ Status.code .stalled = 5 := by decide +kernel

/-- The rows of the table give no bits. -/
theorem test_no_bits : decodeTableWord 32 0x10 = none := by decide +kernel

/-! ### One step for each command -/

theorem test_power_on_reset :
    gives (.powerOnReset ⟨true, false, true⟩) opened
      (fun t => t.link.serialRate == .r230400 && t.mixer.outputMode == .single && t.link.session == .closed) = true := by
  decide +kernel

/-- R68: a READY phrase is kept, its pages stay out of the free list. -/
theorem test_pin_reset :
    gives (.pinReset ⟨false, false, false⟩) (withPhrase3 .ready 1 note69 opened)
      (fun t => (t.phrase 3).state == .ready && (t.phrase 3).refs == 0 && t.store.freePages.length == 63 &&
        t.link.resetCause == .pin) = true := by decide +kernel

/-- R169: after REPLY_SENT has performed the reset, the straps that it samples. -/
theorem test_soft_reset :
    gives (.softReset ⟨true, false, true⟩) (after .replySent (after (.systemResetFull 5 []) opened))
      (fun t => t.link.serialRate == .r230400 && t.mixer.outputMode == .single && t.link.resetCause == .soft &&
        !t.link.strapsDue) = true := by decide +kernel

theorem test_soft_reset_not_called :
    gives (.softReset ⟨false, false, false⟩) opened (fun t => t.link.session == .opened) = true := by decide +kernel

/-- R166, 11.6: part code 610, revision 1, the nine capacities, POWER, first open yes, tick 0. -/
theorem test_link_open :
    replies (.linkOpen 5 [0, 0, 0]) State.reset
      [[0x01, 0x00, 0x02, 0x62, 1, 48, 32, 64, 7, 2, 32, 4, 32, 8, 0, 1, 0, 0, 0, 0]] = true := by decide +kernel

/-- 11.10: a silence timeout of 50 is field 2 out of range, also in CLOSED. -/
theorem test_link_open_bad : replies (.linkOpen 5 [1, 0, 50]) State.reset [[0x01, 0x03, 2, 0xFF]] = true := by decide +kernel

/-- R191: a body of 39 bytes, in CLOSED too. -/
theorem test_status :
    gives (.status 5 []) State.reset (fun t => t.link.replies.map (·.body.length) == [39]) = true := by decide +kernel

/-- R169: AUDIO ends what plays; the ticks go on. -/
theorem test_system_reset_audio :
    gives (.systemResetAudio 5 []) playing7 (fun t => t.voice 0 == Voice.idle && t.sched.live == []) = true := by
  decide +kernel

theorem test_system_reset_full :
    gives (.systemResetFull 5 []) playing7 (fun t => t.sched.live == [7] && t.link.session == .opened) = true := by
  decide +kernel

/-- R169: the SOFT reset comes with the last byte of the reply. -/
theorem test_system_reset_full_ends :
    gives .replySent (after (.systemResetFull 5 []) playing7)
      (fun t => t.link.session == .closed && t.link.resetCause == .soft && t.sched.live == []) = true := by decide +kernel

/-- R175, R190: bit 12 comes back set. -/
theorem test_report_select : replies (.reportSelect 5 [0, 8]) opened [[0x08, 0, 0x1F, 0xF7, 0x10, 0x08]] = true := by
  decide +kernel

/-- R180: the next sequence itself was never sent. -/
theorem test_report_ack : replies (.reportAck 5 [0]) opened [[0x09, 0x03, 1, 0xFF]] = true := by decide +kernel

/-- R8, R17: the due event of the cue follows at once and takes no other entry that is due. -/
theorem test_cue_play :
    gives (.cuePlay 5 playTone) (scheduled { tone7 with tag := 9, quantize := .beat } .scheduled)
      (fun t => t.link.replies.map (·.body) == [[0x10, 0, 0, 0, 0, 1, 0, 0, 0, 0]] &&
        t.sched.entries.map (fun e => (e.cue.tag, e.state, e.cue.deadline)) ==
          [(9, .scheduled, none), (7, .waiting, some 5)] && t.alloc.passes == 1) = true := by decide +kernel

/-- 11.10: the fields of a valid CUE.PLAY fail only the session check in CLOSED. -/
theorem test_cue_play_closed : replies (.cuePlay 5 playTone) State.reset [[0x10, 0x04]] = true := by decide +kernel

/-- R19: REMOVED, and CUE_ENDED by STOPPED with no voice. -/
theorem test_cue_stop : replies (.cueStop 5 [0, 0, 7]) (scheduled tone7 .waiting) [[0x11, 0, 0]] = true := by decide +kernel

theorem test_cue_stop_report :
    reports (.cueStop 5 [0, 0, 7]) (scheduled tone7 .waiting) [.cueEnded 7 .stopped none] = true := by decide +kernel

theorem test_cue_cut : replies (.cueCut 5 [0, 0, 7]) playing7 [[0x12, 0, 3]] = true := by decide +kernel

theorem test_cue_cut_report : reports (.cueCut 5 [2, 0, 0]) playing7 [.cueEnded 7 .cut (some 0)] = true := by
  decide +kernel

/-- R23, R72: PLAYING, with the new volume and priority; in HOLD at 10 the new target is 4, and the level is to fall. -/
theorem test_cue_adjust :
    gives (.cueAdjust 5 [0, 7, 3, 4, 6]) playing7
      (fun t => t.link.replies.map (·.body) == [[0x13, 0, 4, 4, 6]] &&
        (t.voice 0).env == { phase := .attack, level := 10, target := 4, rateCount := 0 }) = true := by decide +kernel

theorem test_cue_adjust_nothing : replies (.cueAdjust 5 [0, 7, 0, 0, 0]) playing7 [[0x13, 0x03, 2, 0xFF]] = true := by
  decide +kernel

/-- R24, 11.6: PLAYING on voice 0, priority 3, volume 10, repeats left 1, no deadline, no reason. -/
theorem test_cue_query :
    replies (.cueQuery 5 [0, 7]) playing7
      [[0x14, 0, 4, 0, 0, 0, 0, 0, 0, 0, 0, 0, 3, 10, 1, 0, 0, 0, 0, 0, 0xFF]] = true := by decide +kernel

theorem test_phrase_begin : replies (.phraseBegin 5 [3, 0, 2, 1, 0]) opened [[0x20, 0, 3, 64]] = true := by decide +kernel

/-- R58: the seventeenth step would need a page; two steps need one. -/
theorem test_phrase_add :
    replies (.phraseAdd 5 [2, 0, 69, 0, 12, 15, 8, 3, 200, 0, 0, 0, 0]) (after (.phraseBegin 4 [3, 0, 2, 1, 0]) opened)
      [[0x20, 0, 3, 64], [0x21, 0, 0, 2, 1, 63]] = true := by decide +kernel

/-- 11.10: no build context is found before the bad gate. -/
theorem test_phrase_add_state :
    replies (.phraseAdd 5 [1, 0, 69, 0, 12, 15, 9]) opened [[0x21, 0x0B]] = true := by decide +kernel

theorem test_phrase_end :
    replies (.phraseEnd 5 []) (withPhrase3 .building 0 note69 opened) [[0x22, 0, 3, 0, 1, 1]] = true := by decide +kernel

theorem test_phrase_drop :
    replies (.phraseDrop 5 [3]) (withPhrase3 .ready 0 note69 opened) [[0x23, 0, 3, 1, 64]] = true := by decide +kernel

theorem test_phrase_drop_in_use :
    replies (.phraseDrop 5 [3]) (withPhrase3 .ready 2 note69 opened) [[0x23, 0x11, 2]] = true := by decide +kernel

theorem test_phrase_info :
    replies (.phraseInfo 5 [3]) (withPhrase3 .ready 2 note69 opened) [[0x24, 0, 2, 0, 2, 1, 0, 0, 1, 1, 2, 0, 1, 0]] = true := by
  decide +kernel

theorem test_map_write :
    gives (.mapWrite 5 [127, 1, 0, 32]) opened (fun t => t.pitchMap[127] == 32 && t.pitchMap[126] == 65) = true := by
  decide +kernel

/-- R91: 31 is no period. -/
theorem test_map_write_bad : replies (.mapWrite 5 [127, 1, 0, 31]) opened [[0x30, 0x03, 3, 0]] = true := by decide +kernel

/-- R92: 1745 is 0x06D1. -/
theorem test_map_read : replies (.mapRead 5 [69, 1]) opened [[0x31, 0, 69, 1, 0x06, 0xD1]] = true := by decide +kernel

theorem test_map_restore :
    gives (.mapRestore 5 []) (after (.mapWrite 4 [69, 1, 0, 32]) opened) (fun t => t.pitchMap[69] == 1745) = true := by
  decide +kernel

/-- R102, R104: the values after a reset, BRIDGE, MUTEN high. -/
theorem test_output_set : replies (.outputSet 5 [0, 0, 0, 0, 0]) opened [[0x33, 0, 24, 6, 0, 0, 0, 0, 1]] = true := by
  decide +kernel

/-- R102: a given duck depth sets the duck count to 0, also where it is the depth in force. -/
theorem test_output_set_depth :
    gives (.outputSet 5 [2, 0, 6, 0, 0]) { opened with mixer := { opened.mixer with duckCount := 5 } }
      (fun t => t.mixer.duckCount == 0 && t.mixer.duckDepth == 6) = true := by decide +kernel

/-- R113: a beat length waits for the next edge. -/
theorem test_clock_set :
    replies (.clockSet 5 [1, 0x01, 0x2C, 0, 0]) opened [[0x40, 0, 0x01, 0x2C, 1, 4, 0, 0, 0x01, 0xF4]] = true := by
  decide +kernel

theorem test_clock_bar :
    gives (.clockBar 5 []) opened (fun t => t.time.barRestart && t.link.replies.map (·.body) == [[0x41, 0, 1, 0, 0]])
      = true := by decide +kernel

/-- R167: the advance that reached the timeout was taken first, so the request is taken in STALLED. -/
theorem test_request_after_timeout :
    gives (.clockRead 5 []) { opened with link := { opened.link with silenceTimeout := 100, silenceCount := 100 } }
      (fun t => t.link.session == .stalled && t.link.replies.map (·.body) == [[0x42, 5]]) = true := by decide +kernel

theorem test_clock_read :
    replies (.clockRead 5 []) opened
      [[0x42, 0, 0, 0, 0, 0, 1, 0, 0, 0x01, 0xF4, 0, 0, 0x01, 0xF4, 4, 0, 0, 0, 0, 0, 0, 0, 0, 0]] = true := by
  decide +kernel

theorem test_stream_open : replies (.streamOpen 5 [1, 3, 1, 0]) opened [[0x50, 0, 0, 32]] = true := by decide +kernel

/-- R127: STORED; with prefill 1 the stream is READY. -/
theorem test_stream_data :
    replies (.streamData 5 [1, 0, 0, 200]) (after (.streamOpen 4 [1, 3, 1, 0]) opened)
      [[0x50, 0, 0, 32], [0x51, 0, 0, 0, 1, 2, 1, 31]] = true := by decide +kernel

/-- R127: the sequence before the expected one is a repeat. -/
theorem test_stream_data_repeat :
    replies (.streamData 5 [1, 0, 0, 200]) (streaming (stream1 .playing)) [[0x51, 0, 1, 0, 1, 3, 1, 31]] = true := by
  decide +kernel

theorem test_stream_end : replies (.streamEnd 5 [1]) (streaming (stream1 .playing)) [[0x52, 0, 3, 1, 31]] = true := by
  decide +kernel

/-- R139: the bound cue is cut, ABORTED, and its block freed. -/
theorem test_stream_abort : replies (.streamAbort 5 [1]) (streaming (stream1 .playing)) [[0x53, 0, 2, 1, 32]] = true := by
  decide +kernel

theorem test_trigger_arm :
    replies (.triggerArm 5 ([2, 0, 0, 0, 0] ++ playTone)) opened [[0x60, 0, 2, 0]] = true := by decide +kernel

theorem test_trigger_disarm :
    replies (.triggerDisarm 5 [1, 0]) (after (.triggerArm 4 ([2, 0, 0, 0, 0] ++ playTone)) opened)
      [[0x60, 0, 2, 0], [0x61, 0, 1]] = true := by decide +kernel

/-- A receiver with these bytes in hand. -/
def inHand (bytes : List Byte) (gap : Nat) : State :=
  { opened with link := { opened.link with receiver := { held := bytes, gap := gap } } }

theorem test_frame_discard :
    gives .frameDiscard (inHand [0xC3, 0xC3] 0)
      (fun t => t.link.discards == 1 && t.link.receiver.held == [0xC3]) = true := by decide +kernel

theorem test_frame_abandon :
    gives .frameAbandon (inHand [0xC3, 0xC3] 21)
      (fun t => t.link.discards == 2 && t.link.receiver.held == []) = true := by decide +kernel

theorem test_reply_sent :
    gives .replySent (after (.status 5 []) opened) (fun t => t.link.transmitter == .idle && t.link.replies == []) = true := by
  decide +kernel

/-- A report in flight, its frame on TXD. -/
def reportOut : State :=
  after (.cueStop 0 [2, 0, 0]) (scheduled tone7 .waiting) |> after .replySent

/-- R178: the last sent tick is set when the frame has left TXD. -/
theorem test_report_frame_sent :
    gives .reportFrameSent reportOut (fun t => t.reports.queue.map (·.lastSent) == [some 0]) = true := by decide +kernel

/-- R105: the counter wraps. -/
theorem test_tick_wraps :
    gives (.tickAdvance ⟨true, true, true, true⟩)
      { opened with time := { opened.time with tick := 0xFFFFFFFF#32 } } (fun t => t.time.tick == 0) = true := by
  decide +kernel

/-- R101: M moves towards the master volume. -/
theorem test_tick_master :
    gives (.tickAdvance ⟨true, true, true, true⟩) opened (fun t => t.mixer.masterFactor == 1) = true := by decide +kernel

/-- R8, R12: a reached cue without quantize waits from its due event, with its deadline. -/
theorem test_due_event :
    gives .dueEvent (scheduled tone7 .scheduled)
      (fun t => t.sched.entries.map (fun e => (e.state, e.cue.deadline)) == [(.waiting, some 5)] && t.alloc.passes == 1)
      = true := by decide +kernel

/-- R13: LATE at the deadline. -/
theorem test_wait_deadline :
    reports (.waitDeadline 7) (scheduled { tone7 with deadline := some 0 } .waiting) [.cueEnded 7 .late none] = true := by
  decide +kernel

/-- The same state with one pass asked. -/
def passAsked (s : State) : State :=
  { s with alloc := { s.alloc with passes := 1 } }

/-- R33: the lowest IDLE voice. -/
theorem test_allocation_pass :
    reports .allocationPass (passAsked (scheduled tone7 .waiting)) [.cueStarted 7 0] = true := by decide +kernel

/-- R38: the departing cue ends STOLEN, and the incoming one starts on the voice. -/
theorem test_handoff_complete :
    reports (.handoffComplete 0) (handoff78 0) [.cueEnded 7 .stolen (some 0), .cueStarted 8 0] = true := by decide +kernel

theorem test_release_complete :
    gives (.releaseComplete 0) (ending7 0) (fun t => t.voice 0 == Voice.idle && t.alloc.passes == 1) = true := by
  decide +kernel

/-- R71: at release 4 the level falls when the rate count reaches 4. -/
theorem test_rate_count_step :
    gives (.rateCountStep 0)
      (onVoice0
        { (ending7 10).voice 0 with env := { phase := .release, level := 10, target := 10, rateCount := 4 } } [7])
      (fun t => (t.voice 0).env.level == 9 && (t.voice 0).env.rateCount == 0) = true := by decide +kernel

/-- Tag 7 at the end of its note. -/
def noteOver (gate step : Nat) : State :=
  onVoice0 { sounding tone7 with player := some { inNote with gateTicks := some gate, stepTicks := some step } } [7]

/-- R86: at the end of its note a TONE enters ENDING. -/
theorem test_step_end :
    gives (.stepEnd 0) (noteOver 5 0)
      (fun t => (t.voice 0).state == .ending && (t.voice 0).releaseMode == some .normal) = true := by decide +kernel

theorem test_gate_runs_out :
    gives (.gateRunsOut 0) (noteOver 0 5)
      (fun t => (t.voice 0).env.phase == .release && (t.voice 0).state == .active) = true := by decide +kernel

/-- R100: at a count of 8 the amount moves by 1. -/
theorem test_duck_step :
    gives .duckStep
      { streaming (stream1 .playing) with mixer := { (streaming (stream1 .playing)).mixer with duckCount := 8 } }
      (fun t => t.mixer.duckAmount == 1 && t.mixer.duckCount == 0) = true := by decide +kernel

/-- R136: UNDERRUN at 2000 ticks. -/
theorem test_starve_limit :
    gives (.starveLimit 0) (streaming { stream1 .starved with filled := [], starve := some 2000 })
      (fun t => (t.voice 6).current.map (·.cue.endReason) == some (some .underrun)) = true := by decide +kernel

/-- R140: the limit of an advance taken first ends the cue, UNDERRUN; the stream stays STARVED and the END only sets LAST. -/
theorem test_stream_end_after_limit :
    gives (.streamEnd 5 [1]) (streaming { stream1 .starved with filled := [], starve := some 2000 })
      (fun t =>
        t.link.replies.map (·.body) == [[0x52, 0, 4, 0, 32]] && (t.stream 0).map (·.last) == some true &&
          (t.voice 6).current.map (·.cue.endReason) == some (some .underrun)) = true := by decide +kernel

/-- The time base asked for an edge. -/
def edgeAsked (a : BeatAsk) : State :=
  { opened with
    time :=
      { opened.time with
        beatAsk := some a, source := if a = .sync then .external else .internal, tick := 500, interval := 500
        sync := if a = .sync then .seeking else .internal, beatInBar := 4 } }

/-- R120: the edge of an advance taken first is beat 1 of bar 1; the bar restarts at the edge after it. -/
theorem test_clock_bar_after_edge :
    gives (.clockBar 5 []) (edgeAsked .internal)
      (fun t => t.time.barRestart && t.link.replies.map (·.body) == [[0x41, 0, 1, 0, 1]]) = true := by decide +kernel

/-- R109: past the last beat the bar number is raised. -/
theorem test_internal_beat_edge :
    gives .internalBeatEdge (edgeAsked .internal)
      (fun t => t.time.beatInBar == 1 && t.time.barNumber == 1 && t.time.lastBeat == some 500) = true := by decide +kernel

theorem test_sync_edge :
    gives .syncEdge (edgeAsked .sync) (fun t => t.time.sync == .locked && t.time.lossReference == some 500) = true := by
  decide +kernel

/-- SYNC sought since tick 0, at this tick. -/
def seekingAt (tick : Tick) : State :=
  { opened with
    time :=
      { opened.time with source := .external, sync := .seeking, lossReference := some 0, tick := tick } }

/-- R117: at 4 effective beat lengths. -/
theorem test_sync_loss :
    gives .syncLoss (seekingAt 2000)
      (fun t => t.time.sync == .fallback && t.reports.queue.map (·.kind) == [.syncLost 0]) = true := by decide +kernel

theorem test_silence_timeout :
    gives .silenceTimeout
      { opened with link := { opened.link with silenceTimeout := 100, silenceCount := 100 } }
      (fun t => t.link.session == .stalled) = true := by decide +kernel

/-- A report sent at tick 0 and not acknowledged. -/
def unacked (retry : Nat) (tick : Tick) : State :=
  { opened with
    time := { opened.time with tick := tick }
    reports :=
      { opened.reports with
        queue :=
          [{ sequence := 0, kind := .syncRegained, tick := 0, sent := true, frameDue := false, lastSent := some 0,
             onLine := false }]
        nextSequence := 1
        retry := retry } }

/-- R164: the report that the timer of an advance makes due again is begun before the reply to a later request. -/
theorem test_status_after_timer :
    gives (.status 5 []) (unacked 0 250)
      (fun t => t.link.transmitter == .report (frame 3 0 [6, 0, 0, 0, 0]) && t.link.replies.length == 1) = true := by
  decide +kernel

/-- R178: go-back at 250 ticks. -/
theorem test_retransmission_timer :
    gives .retransmissionTimer (unacked 0 250)
      (fun t => t.reports.retry == 1 && t.link.transmitter == .report (frame 3 0 [6, 0, 0, 0, 0])) = true := by
  decide +kernel

/-- R179: a stall after the third. -/
theorem test_retransmission_stalls :
    gives .retransmissionTimer (unacked 3 250) (fun t => t.link.session == .stalled) = true := by decide +kernel

/-- Slot 2 armed with the tone of tag 7 on a falling edge of TRG0, and the line as given. -/
def armedFor (mode policy : Byte) (edge : Option Bool) (s : State) : State :=
  let t := { after (.triggerArm 0 ([2, 0, 0, mode, policy] ++ playTone)) s with link := s.link }
  { t with triggers := { t.triggers with trg0 := { t.triggers.trg0 with edge := edge } } }

/-- R147 to R149: accepted, TRIGGER_FIRED, and the ONCE slot is disarmed. -/
theorem test_firing_event :
    gives (.firingEvent .trg0) (armedFor 0 0 (some false) opened)
      (fun t => t.reports.queue.map (·.kind) == [.triggerFired 2 7] && t.triggers.slots[2] == none &&
        t.sched.entries.map (·.state) == [.waiting] && t.alloc.passes == 1) = true := by decide +kernel

/-- R95, R99: a square at level 10 in its first half, at M 31: 8 × 10 = 80, and 512 + 80 parts high. -/
theorem test_output_sample :
    gives .outputSample { playing7 with mixer := { playing7.mixer with masterFactor := 31 } }
      (fun t => t.mixer.value == 80 && t.mixer.pwm == { pHigh := 592, nHigh := 432 }) = true := by decide +kernel

/-- The one block of the stream, read for its hold. -/
def atBlockEnd (t : OpenStream) : State :=
  streaming { t with read := some { index := 0, holdCount := 1 } }

/-- R135: an emptied list without LAST starves. -/
theorem test_block_used_up :
    gives .blockUsedUp (atBlockEnd (stream1 .playing))
      (fun t => t.freeCount == 32 && t.reports.queue.map (·.kind) == [.streamStarved 1]) = true := by decide +kernel

/-- Voice 0 at this phase count. -/
def atPhase (shape : Shape) (phase clocks : Nat) (reg : BitVec 15) : State :=
  onVoice0
    { sounding tone7 with
      player := some { inNote with shape := shape }, osc := some { phaseCount := phase, noise := reg, clocks := clocks } }
    [7]

/-- R96: all ones become 0x7FFE. -/
theorem test_noise_shift :
    gives (.noiseShift 0) (atPhase .noise 1744 0 (BitVec.allOnes 15))
      (fun t => (t.voice 0).osc.map (fun o => (o.noise, o.phaseCount)) == some (0x7FFE#15, 1745)) = true := by
  decide +kernel

theorem test_pin_reset_taken :
    gives .pinResetTaken playing7 (fun t => t.inReset && t.mixer.pwm == { pHigh := 0, nHigh := 0 }) = true := by
  decide +kernel

/-- R157: a LEN of 201 is bad, and counted. -/
theorem test_byte_received :
    gives (.byteReceived 201) (inHand [0xC3] 0)
      (fun t => t.link.discards == 1 && t.link.receiver.held == []) = true := by decide +kernel

/-- R157, R186: a whole frame of an unknown code, sent byte by byte, is answered with the code (11.10). -/
theorem test_unknown_request :
    (match feed (frame 1 9 [0x7F]) opened with
      | .next t => t.link.replies.map (·.body) == [[0x7F, 0x01]]
      | _ => false) = true := by decide +kernel

/-- An empty queue idles. -/
theorem test_idle : step opened = .next opened := rfl

/-! ### A state and operands that meet the hypotheses of each statement: the link, the session, the reports -/

theorem witness_StepTakesFront :
    ({ opened with pending := [.duckStep, .outputSample] } : State).pending = .duckStep :: [.outputSample] := rfl

/-- The reply of a SYSTEM.RESET FULL is on TXD. -/
def fullOut (s : State) : State :=
  after (.systemResetFull 5 []) s

theorem witness_ResetsClearTheBlocks :
    (fullOut playing7).inReset = false ∧ (fullOut playing7).link.sendingFull = true := by decide +kernel

theorem witness_ResetsKeepReadyPhrases :
    let ready := fullOut (withPhrase3 .ready 2 note69 opened)
    let building := fullOut (withPhrase3 .building 0 note69 opened)
    (ready.inReset = false ∧ ready.link.sendingFull = true ∧ (ready.phrase 3).state = .ready ∧
        (ready.phrase 31).state ≠ .ready) ∧
      (building.link.sendingFull = true ∧ (building.phrase 3).state = .building) ∧
      (opened.inReset = false ∧ opened.link.sendingFull = false ∧ opened.link.strapsDue = false) ∧
      let sent := after .replySent ready
      sent.inReset = false ∧ sent.link.sendingFull = false ∧ sent.link.strapsDue = true := by decide +kernel

theorem witness_PinResetHoldsThePart :
    (after .pinResetTaken opened).inReset = true ∧ (∀ straps, Instr.dueEvent ≠ .powerOnReset straps) ∧
      (∀ straps, Instr.dueEvent ≠ .pinReset straps) ∧ Instr.dueEvent ≠ .pinResetTaken :=
  ⟨rfl, nofun, nofun, nofun⟩

theorem opened_chooses_nothing : opened.chooseFrame = opened := rfl

/-- At both ends of the range of LEN. -/
theorem witness_FrameIsReceived :
    opened.inReset = false ∧ opened.link.receiver.held = [] ∧ opened.chooseFrame = opened ∧
      ([] : List Byte).length ≤ 200 ∧ (List.replicate 200 (0xC3 : Byte)).length ≤ 200 :=
  ⟨rfl, rfl, rfl, by decide, by decide +kernel⟩

/-- A frame with this body of one byte, to its first check byte. -/
def toCheck (code : Byte) : List Byte :=
  (frame 1 9 [code]).dropLast

/-- Hunting with 0xC2 and 0xC3; a gap of 20 and of 21; LEN 200 and 201; TYPE 1, 2 and 0xC3 after LEN 200, and 200 and 201
after LEN 0xC3; NUM, the last body byte and the first check byte of a frame of LEN 1; its last check byte right and wrong,
with no 0xC3 behind the start byte and with one; a request row. -/
theorem witness_ByteReceivedHolds :
    (opened.inReset = false ∧ opened.link.receiver.held = [] ∧ (0xC2 : Byte) ≠ 0xC3) ∧
      ((inHand [0xC3] 20).inReset = false ∧ (inHand [0xC3] 20).link.receiver.held = [0xC3] ∧
        (inHand [0xC3] 20).link.receiver.gap < 21 ∧ 21 ≤ (inHand [0xC3] 21).link.receiver.gap) ∧
      ((200 : Byte).toNat ≤ 200 ∧ 200 < (201 : Byte).toNat) ∧
      ((inHand [0xC3, 200] 0).link.receiver.held = [0xC3, 200] ∧ (200 : Byte) ≠ 0xC3 ∧ (2 : Byte) ≠ 1 ∧ (2 : Byte) ≠ 0xC3 ∧
        (inHand [0xC3, 0xC3] 0).link.receiver.held = [0xC3, 0xC3] ∧ (200 : Byte) ≠ 1) ∧
      (∀ k : Fin 3, ((toCheck 0x7F).take (3 + k.val)).drop 2 ≠ [] ∧
        ((toCheck 0x7F).take (3 + k.val)).tail.tail.length ≠ (1 : Byte).toNat + 3) ∧
      (toCheck 0x7F = 0xC3 :: 1 :: 1 :: 9 :: ([0x7F] ++ [(crc [1, 1, 9, 0x7F]).extractLsb' 8 8]) ∧
        ([0x7F] : List Byte).length = (1 : Byte).toNat ∧
        crc [1, 1, 9, 0x7F] = (crc [1, 1, 9, 0x7F]).extractLsb' 8 8 ++ (crc [1, 1, 9, 0x7F]).extractLsb' 0 8 ∧
        crc [1, 1, 9, 0x7F] ≠ (crc [1, 1, 9, 0x7F]).extractLsb' 8 8 ++ (crc [1, 1, 9, 0x7F] + 1).extractLsb' 0 8 ∧
        0xC3 ∉ (toCheck 0x7F).tail ++ [(crc [1, 1, 9, 0x7F] + 1).extractLsb' 0 8] ∧ 0xC3 ∈ (toCheck 0xC3).tail) ∧
      requestOf (.status 5 []) = some (.status, 5, []) ∧ opened.link.abandonDue = false := by decide +kernel

/-- Nothing held; a gap of 21 and of 20. -/
theorem witness_FramesAreDiscarded :
    (opened.inReset = false ∧ opened.link.receiver.held = []) ∧ (inHand [0xC3, 0xC3] 20).link.receiver.gap < 21 ∧ ((inHand [0xC3, 5, 1] 21).link.receiver.held = 0xC3 :: [5, 1] ∧ (0xC3 : Byte) ∉ ([5, 1] : List Byte) ∧
        21 ≤ (inHand [0xC3, 5, 1] 21).link.receiver.gap ∧ (inHand [0xC3, 5, 1] 21).inReset = false) ∧
      ((inHand [0xC3, 0xC3, 200] 21).link.receiver.held = 0xC3 :: 0xC3 :: [200] ∧
        (0xC3 : Byte) ∉ ([200] : List Byte) ∧ ([200] : List Byte).length ≤ 1 ∧
        ∀ len : Byte, [200] = [len] → len.toNat ≤ 200) ∧
      (inHand [0xC3, 0xC3] 21).link.receiver.held = 0xC3 :: 0xC3 :: [] :=
  ⟨⟨rfl, rfl⟩, by decide, by decide +kernel, ⟨rfl, by decide, by decide, fun len h => by cases h; decide⟩, rfl⟩

/-- A reply cache of n entries with the tags 1 to n. -/
def cached (n : Nat) : State :=
  { opened with
    link :=
      { opened.link with
        cache := (List.range n).map fun k => { tag := byteOf (k + 1), code := 2, scope := none, body := [] } } }

/-- The session in this state. -/
def inSession (x : Session) : State :=
  { opened with link := { opened.link with session := x } }

/-- An empty body and a code of no request, with tag 0 and with a new tag at 7 and 8 entries, and one reply pending; a
request of a good length; a CUE.QUERY of one byte, of tag 0, and of tag 1 in CLOSED and STALLED. -/
theorem witness_CommonChecksRefuse :
    ((([] : List Byte) = [] ∨ (0 : Byte).toNat ∉ requestCodes) ∧ (0x7F : Byte).toNat ∉ requestCodes ∧
        (0x62 : Byte).toNat ∉ requestCodes ∧ opened.link.silenceDue = false ∧ opened.timerDue = false ∧ opened.link.replies.length < 2 ∧
        (after (.status 5 []) opened).link.replies.length < 2 ∧ (∀ e ∈ (cached 7).link.cache, e.tag ≠ 9) ∧
        (cached 7).link.cache.length < 8 ∧ (∀ e ∈ (cached 8).link.cache, e.tag ≠ 9) ∧ 8 ≤ (cached 8).link.cache.length ∧
        ∀ e ∈ (cached 8).link.cache, e.code ≠ 0x7F) ∧
      Request.cueQuery.lengthOk [0, 0] = true ∧ (requestOf (.cueQuery 5 [1]) = some (.cueQuery, 5, [1]) ∧ opened.Takes .cueQuery 5 [1] ∧
        Request.cueQuery.lengthOk [1] = false) ∧
      (opened.Takes .cueQuery 5 [0, 0] ∧ Request.cueQuery.lengthOk [0, 0] = true ∧
        firstBad (Request.cueQuery.tests [0, 0]) = some 1) ∧
      ((inSession .closed).Takes .cueQuery 5 [0, 1] ∧ Request.cueQuery.lengthOk [0, 1] = true ∧
        firstBad (Request.cueQuery.tests [0, 1]) = none ∧ (inSession .closed).link.session = .closed) ∧
      (inSession .stalled).Takes .cueQuery 5 [0, 1] ∧ (inSession .stalled).link.session = .stalled :=
  ⟨by decide +kernel, by decide, ⟨rfl, takes_of (by decide +kernel), by decide⟩,
    ⟨takes_of (by decide +kernel), by decide +kernel, by decide +kernel⟩,
    ⟨takes_of (by decide +kernel), by decide +kernel, by decide +kernel, rfl⟩, takes_of (by decide +kernel), rfl⟩

/-- Tag 0; a tag in a full cache; a new tag at 7 and at 8 entries; an idle and a busy transmitter. -/
theorem witness_AnswerIsSentAndRecorded :
    ((1 : Byte) ≠ 0 ∧ ∃ e ∈ (cached 8).link.cache, e.tag = 1) ∧
      ((9 : Byte) ≠ 0 ∧ (∀ e ∈ (cached 7).link.cache, e.tag ≠ 9) ∧ (cached 7).link.cache.length < 8) ∧
      ((∀ e ∈ (cached 8).link.cache, e.tag ≠ 9) ∧ (cached 8).link.cache.length = 8) ∧
      (opened.inReset = false ∧ opened.link.transmitter = .idle ∧
        opened.link.replies = []) ∧
      (after (.status 5 []) opened).link.transmitter ≠ .idle := by decide +kernel

/-- Every field at an end of its range, in CLOSED. -/
theorem witness_LinkOpenOpensTheSession :
    State.reset.Passes .linkOpen 5 [1, 0xEA, 0x60] ∧ State.reset.Passes .linkOpen 0 [0, 0, 100] ∧
      State.reset.Passes .linkOpen 5 [0, 0, 0] :=
  ⟨passes_of (by decide +kernel), passes_of (by decide +kernel), passes_of (by decide +kernel)⟩

/-- A state that differs from the state after reset in the schedule, the voices, the reports and the link is sound where
those are. -/
theorem sound_of {s : State} (h1 : s.store = State.reset.store) (h2 : s.streams = State.reset.streams)
    (h3 : s.time.Ok) (h4 : s.mixer.Ok) (h5 : s.link.Ok) (h6 : s.reports.Ok) (h7 : s.pitchMap = State.reset.pitchMap) :
    s.Sound :=
  { store := by
      rw [h1]
      unfold PhraseStore.Ok PhraseSlot.Ok
      decide +kernel
    map := by
      rw [h7]
      unfold mapOk
      decide +kernel
    streams := by
      rw [h2]
      unfold StreamUnit.Ok
      refine ⟨by decide +kernel, by decide +kernel, ?_, by simp [State.reset, StreamUnit.afterReset]⟩
      intro t ht b hb
      simp [State.reset, StreamUnit.afterReset] at ht
      simp [ht, filledOf] at hb
    time := h3
    mixer := h4
    link := h5
    reports := h6 }

theorem link_ok {l : Link} (h : l.transmitter = .idle)
    (h2 : l.cache.length ≤ 8 ∧ (l.cache.map CacheEntry.tag).Nodup ∧ 0 ∉ l.cache.map CacheEntry.tag ∧
      l.replies.length ≤ 2 ∧ l.discards ≤ 65535 ∧ l.overruns ≤ 65535) : l.Ok :=
  ⟨h2.1, h2.2.1, h2.2.2.1, h2.2.2.2.1, fun b k => (by simp [h] at k), h2.2.2.2.2.1, h2.2.2.2.2.2⟩

theorem playing7_sound : playing7.Sound :=
  sound_of rfl rfl (by unfold TimeBase.Ok; decide +kernel) (by unfold Mixer.Ok; decide +kernel)
    (link_ok rfl (by decide +kernel))
    ⟨by unfold ReportUnit.Numbered; decide +kernel, by decide +kernel, by decide +kernel,
      ⟨0, by decide, by decide +kernel⟩, by decide +kernel, by decide +kernel⟩ rfl

theorem playing7_placed : playing7.Placed :=
  placed_of (by decide +kernel)

theorem witness_SystemResetQuiets :
    playing7.Passes .systemReset 5 [0] ∧ playing7.Sound ∧ playing7.Placed ∧ playing7.Passes .systemReset 5 [1] :=
  ⟨passes_of (by decide +kernel), playing7_sound, playing7_placed, passes_of (by decide +kernel)⟩

theorem unacked_ok (retry : Nat) (h : retry ≤ 3) (tick : Tick) : (unacked retry tick).reports.Ok :=
  ⟨by unfold ReportUnit.Numbered; simp [unacked], by simp [unacked], by simp [unacked],
    ⟨1, by decide, by simp [unacked]⟩, by simp [unacked], h⟩

/-- A frame abandoned at a gap of 21; a session silent for its timeout; a report unacknowledged with 3 retries made, and
with 2; two replies pending; the replies of STATUS and SYSTEM.RESET in the cache. -/
theorem witness_OverrunAndCacheAnswer :
    ((inHand [0xC3] 21).inReset = false ∧ (inHand [0xC3] 21).overdue = true ∧ (inHand [0xC3] 21).reports.Ok) ∧
      (let s : State := { opened with link := { opened.link with silenceTimeout := 100, silenceCount := 100 } }
       s.inReset = false ∧ s.overdue = true ∧ s.reports.Ok ∧ s.link.abandonDue = false ∧ s.link.silenceDue = true) ∧
      ((unacked 3 250).timerDue = true ∧ (unacked 3 250).reports.retry = 3 ∧ (unacked 3 250).reports.Ok) ∧
      ((unacked 2 250).inReset = false ∧ (unacked 2 250).overdue = true ∧ (unacked 2 250).link.abandonDue = false ∧
        (unacked 2 250).link.silenceDue = false ∧ (unacked 2 250).timerDue = true ∧ (unacked 2 250).reports.retry < 3 ∧
        (unacked 2 250).link.transmitter = .idle ∧ (unacked 2 250).link.replies = [] ∧ (unacked 2 250).reports.Ok) ∧
      (let s := after (.clockRead 6 []) (after (.status 5 []) opened)
       s.inReset = false ∧ s.overdue = false ∧ 2 ≤ s.link.replies.length) ∧
      let s := after .replySent (after (.systemResetAudio 6 []) (after .replySent (after (.status 5 []) opened)))
      s.inReset = false ∧ s.overdue = false ∧ s.link.replies.length < 2 ∧ (s.link.cache.map CacheEntry.tag).Nodup ∧
        (∃ e ∈ s.link.cache, e.tag = 5 ∧ e.code = Request.status.code ∧ e.scope = none) ∧
        ∃ e ∈ s.link.cache, e.tag = 6 ∧ e.code = Request.systemReset.code ∧ e.scope = some 0 :=
  ⟨⟨rfl, by decide +kernel, playing7_sound.reports⟩, ⟨rfl, by decide +kernel, playing7_sound.reports, by decide +kernel,
      by decide +kernel⟩, ⟨by decide +kernel, rfl, unacked_ok 3 (by decide) 250⟩,
    ⟨rfl, by decide +kernel, by decide +kernel, by decide +kernel, by decide +kernel, by decide, rfl, rfl,
      unacked_ok 2 (by decide) 250⟩, by decide +kernel, by decide +kernel⟩

/-- The in-flight sequence; a retired one at distances 1 and 128; one at distance 129. -/
theorem witness_ReportsAreSelectedAndAcked :
    opened.Passes .reportSelect 5 [0xFF, 0xFF] ∧ (unacked 0 0).Passes .reportAck 5 [0] ∧ (unacked 0 0).reports.Ok ∧
      (∃ h : 0 < (unacked 0 0).reports.queue.length,
        (unacked 0 0).reports.queue[0].sent = true ∧ (unacked 0 0).reports.queue[0].sequence = 0) ∧
      (∀ r ∈ (unacked 0 0).reports.queue, r.sent = true → r.sequence ≠ 255 ∧ r.sequence ≠ 128 ∧ r.sequence ≠ 127) ∧
      (0 - 255 : Byte).toNat = 1 ∧ (0 - 128 : Byte).toNat = 128 ∧ (0 - 127 : Byte).toNat = 129 :=
  ⟨passes_of (by decide +kernel), passes_of (by decide +kernel), unacked_ok 0 (by decide) 0, ⟨by decide +kernel, by decide +kernel⟩,
    by decide +kernel, by decide, by decide, by decide⟩

/-- A queue of n unsent reports and then this one. -/
def queued (n : Nat) (kind : ReportKind) (sent : Bool) : ReportUnit :=
  { opened.reports with
    queue :=
      (List.range n).map (fun k =>
          { sequence := byteOf k, kind := .syncRegained, tick := 0, sent := false, frameDue := true, lastSent := none,
            onLine := false }) ++
        [{ sequence := byteOf n, kind := kind, tick := 0, sent := sent, frameDue := !sent, lastSent := none,
           onLine := false }]
    nextSequence := byteOf (n + 1) }

/-- BEAT is not selected after a reset; 30 reports; 31 and 32 with an unsent REPORTS_LOST; 31 with another newest. -/
theorem witness_OffersAreAdmitted :
    opened.reports.mask.getLsbD ((ReportKind.beat 1 0).code - 1) = false ∧
      opened.reports.mask.getLsbD (ReportKind.syncRegained.code - 1) = true ∧
      (queued 29 .syncRegained false).queue.length < 31 ∧ 31 ≤ (queued 30 (.reportsLost 65535) false).queue.length ∧
      (∃ r, (queued 31 (.reportsLost 1) false).queue.getLast? = some r ∧ r.kind = .reportsLost 1 ∧ r.sent = false) ∧
      (queued 30 .syncRegained false).queue.length = 31 ∧ ∀ n, ReportKind.syncRegained ≠ .reportsLost n :=
  ⟨by decide +kernel, by decide +kernel, by decide +kernel, by decide +kernel, ⟨_, rfl, rfl, rfl⟩, by decide +kernel, nofun⟩

/-- A part with this queue. -/
def withReports (u : ReportUnit) : State :=
  { opened with reports := u }

/-- Busy; a reply pending; CLOSED; silent for its timeout, and one advance short of it; the head unacknowledged for 250
ticks, and for 249; nothing due; due at place 0, and at place 3 first. -/
theorem witness_NextFrameIsChosen :
    (after (.status 5 []) opened).link.transmitter ≠ .idle ∧
      (let s : State := { opened with link := { opened.link with replies := [⟨5, [2, 0], false⟩] } }
       s.link.transmitter = .idle ∧ s.inReset = false ∧
        s.link.replies = ⟨5, [2, 0], false⟩ :: []) ∧
      (State.reset.link.replies = [] ∧ State.reset.link.session ≠ .opened) ∧
      (let s (n : Nat) : Link := { opened.link with silenceTimeout := 100, silenceCount := n }
       ((s 100).silenceTimeout ≠ 0 ∧ (s 100).silenceTimeout ≤ (s 100).silenceCount) ∧
        ¬((s 99).silenceTimeout ≠ 0 ∧ (s 99).silenceTimeout ≤ (s 99).silenceCount)) ∧
      ((∃ r rest t, (unacked 0 250).reports.queue = r :: rest ∧ r.frameDue = false ∧ r.onLine = false ∧ r.lastSent = some t ∧
          250 ≤ ((unacked 0 250).time.tick - t).toNat) ∧
        (unacked 0 250).link.transmitter = .idle ∧ (unacked 0 250).link.session = .opened ∧
        (unacked 0 250).timerDue = true ∧ (unacked 0 249).timerDue = false) ∧
      (opened.link.session = .opened ∧ opened.link.silenceTimeout = 0 ∧ opened.reports.queue = []) ∧
      (∃ r, (withReports (queued 5 .syncRegained false)).reports.queue[0]? = some r ∧ r.frameDue = true) ∧
      let q : List Report := (List.range 4).map fun k => { (Report.fresh (byteOf k) .syncRegained 0) with frameDue := k == 3 }
      (∃ r, q[3]? = some r ∧ r.frameDue = true) ∧ ∀ j < 3, ∀ r ∈ q[j]?, r.frameDue = false :=
  ⟨by decide +kernel, by decide +kernel, by decide +kernel, by decide +kernel,
    ⟨⟨_, _, _, rfl, rfl, rfl, rfl, by decide⟩, rfl, rfl, by decide +kernel, by decide +kernel⟩, by decide +kernel,
    by decide +kernel, by decide +kernel⟩

/-- A STATUS reply, a FULL reply and a report on TXD. -/
theorem witness_FramesEnd :
    (∃ bytes p rest, (fullOut opened).link.transmitter = .reply bytes ∧ (fullOut opened).link.replies = p :: rest ∧
      p.full = true) ∧ (∃ bytes p rest, (after (.status 5 []) opened).link.transmitter = .reply bytes ∧
        (after (.status 5 []) opened).link.replies = p :: rest ∧ p.full = false) ∧
      (∃ bytes, reportOut.link.transmitter = .report bytes) ∧ reportOut.inReset = false ∧
      (after (.status 5 []) opened).inReset = false :=
  ⟨⟨_, _, _, rfl, rfl, rfl⟩, ⟨_, _, _, rfl, rfl, rfl⟩, ⟨_, rfl⟩, rfl, rfl⟩

/-- An OPEN session under SILENCE that has heard nothing for its timeout, while tag 7 plays. -/
def unheard (policy : OrphanPolicy) (retry : Nat) (queue : List Report) : State :=
  { playing7 with
    time := { playing7.time with tick := 250 }
    reports := { playing7.reports with queue := queue, nextSequence := byteOf queue.length, retry := retry }
    link := { playing7.link with orphan := policy, silenceTimeout := 100, silenceCount := 100 } }

theorem unheard_sound : (unheard .silence 0 []).Sound :=
  sound_of rfl rfl (by unfold TimeBase.Ok; decide +kernel) (by unfold Mixer.Ok; decide +kernel)
    (link_ok rfl (by decide +kernel))
    ⟨by unfold ReportUnit.Numbered; simp [unheard], by simp [unheard], by simp [unheard],
      ⟨0, by decide, by simp [unheard]⟩, by simp [unheard], by simp [unheard]⟩ rfl

theorem unheard_placed (policy : OrphanPolicy) (retry : Nat) (queue : List Report) : (unheard policy retry queue).Placed :=
  ⟨playing7_placed.voices, playing7_placed.tags, playing7_placed.refs⟩

/-- A go-back at 250 ticks with 2 retries made; a stall with 3, and one by silence, under both policies. -/
theorem witness_TimersGoBackAndStall :
    (∃ r rest t, (unacked 2 250).reports.queue = r :: rest ∧ r.lastSent = some t ∧ r.frameDue = false ∧
        r.onLine = false ∧ 250 ≤ ((unacked 2 250).time.tick - t).toNat) ∧
      ((unacked 2 250).inReset = false ∧ (unacked 2 250).link.session = .opened ∧ (unacked 2 250).reports.retry < 3) ∧
      (∃ r rest t, (unacked 3 250).reports.queue = r :: rest ∧ r.lastSent = some t ∧ r.frameDue = false ∧
        r.onLine = false ∧ 250 ≤ ((unacked 3 250).time.tick - t).toNat) ∧
      ((unacked 3 250).reports.retry = 3 ∧ (unacked 3 250).link.orphan = .continue) ∧
      (unheard .silence 0 []).link.session = .opened ∧ (unheard .silence 0 []).link.silenceTimeout ≠ 0 ∧
      (unheard .silence 0 []).link.silenceTimeout ≤ (unheard .silence 0 []).link.silenceCount ∧
      (unheard .silence 0 []).link.orphan = .silence ∧ (unheard .silence 0 []).Sound ∧ (unheard .silence 0 []).Placed :=
  ⟨⟨_, _, _, rfl, rfl, rfl, rfl, by decide⟩, ⟨rfl, rfl, by decide⟩, ⟨_, _, _, rfl, rfl, rfl, rfl, by decide⟩, ⟨rfl, rfl⟩, rfl,
    by decide, by decide, rfl, unheard_sound, unheard_placed _ _ _⟩

/-! ### The same for cues -/

/-- An entry of tag `tag` due at `due`. -/
def entryAt (tag : Tag) (due : Tick) (st : EntryState) : Entry :=
  { cue := { tone7 with tag := tag, due := due }, state := st }

/-- Before the first later SCHEDULED entry, past an ALIGNING one and one 2^31 ticks off; at the end behind equal due ticks;
within 2^31 ticks of a tick, in order. -/
theorem witness_CuesAreInsertedInOrder :
    let later (e : Entry) : Prop :=
      e.state = .scheduled ∧ e.cue.due - 5 ≠ 0 ∧ (e.cue.due - 5).toNat < 2 ^ 31
    later (entryAt 3 6 .scheduled) ∧ later (entryAt 3 0x80000004 .scheduled) ∧
      (∀ x ∈ [entryAt 1 6 .aligning, entryAt 2 0x80000005 .scheduled], ¬later x) ∧
      (∀ x ∈ [entryAt 1 5 .scheduled], ¬later x) ∧
      (let distance (e : Entry) : Nat := (e.cue.due - 0xFFFFFFFF).toNat
       let l := [entryAt 1 0xFFFFFFFF .waiting, entryAt 2 3 .scheduled, entryAt 3 0x7FFFFFFE .scheduled]
       let new := entryAt 4 5 .scheduled
       (∀ e ∈ new :: l, distance e < 2 ^ 31) ∧ (∀ e ∈ l, e.state ≠ .scheduled → distance e ≤ distance new) ∧
        l.Pairwise fun x y => distance x ≤ distance y) := by decide +kernel

/-- The part with n more SCHEDULED entries, due at 100. -/
def crowded (n : Nat) (s : State) : State :=
  { s with
    sched :=
      { s.sched with
        entries := s.sched.entries ++ (List.range n).map fun k => entryAt (halfOf (1000 + k)) 100 .scheduled
        live := s.sched.live ++ (List.range n).map fun k => halfOf (1000 + k) } }

/-- The stream of id 1 READY and unbound. -/
def offeredStream : State :=
  withStream { stream1 .ready with bound := none, read := none } opened

theorem source_tone : (readTemplate playTone 0).source = .tone 69 100 .square := by decide +kernel

theorem source_phrase : (readTemplate playPhrase 0).source = .phrase 3 := by decide +kernel

theorem source_stream : (readTemplate playStream 0).source = .stream 1 := by decide +kernel

/-- With 47 entries: a tone that is due and one that is not, a READY phrase, an unbound stream. -/
theorem witness_CuePlayIsAccepted :
    ((crowded 47 opened).Passes .cuePlay 5 playTone ∧
        (readTemplate playTone 0).tag ∉ (crowded 47 opened).sched.live ∧ (crowded 47 opened).sched.entries.length < 48 ∧
        (∀ id, (readTemplate playTone 0).source ≠ .phrase id) ∧ ∀ id, (readTemplate playTone 0).source ≠ .stream id) ∧
      ((crowded 47 opened).Passes .cuePlay 5 ((playTone.set 10 2).set 14 1) ∧
        reached opened.now ((crowded 47 opened).newCue (readTemplate ((playTone.set 10 2).set 14 1) 0)).due = false ∧
        reached opened.now ((crowded 47 opened).newCue (readTemplate playTone 0)).due = true) ∧
      (let s := crowded 47 (withPhrase3 .ready 0 note69 opened)
       s.Passes .cuePlay 5 playPhrase ∧ (readTemplate playPhrase 0).tag ∉ s.sched.live ∧ s.sched.entries.length < 48 ∧
        (readTemplate playPhrase 0).source = .phrase 3 ∧ (readTemplate playPhrase 0).rates = none ∧
        (s.phrase 3).state = .ready) ∧
      offeredStream.Passes .cuePlay 5 playStream ∧ (readTemplate playStream 0).tag ∉ offeredStream.sched.live ∧
      offeredStream.sched.entries.length < 48 ∧ (readTemplate playStream 0).source = .stream 1 ∧
      (readTemplate playStream 0).rates = none ∧ (readTemplate playStream 0).repeats = 1 ∧
      offeredStream.openSlot 1 = some 0 ∧ ∃ x, offeredStream.stream 0 = some x ∧ x.bound = none :=
  ⟨⟨passes_of (by decide +kernel), by decide +kernel, by decide +kernel, by rw [source_tone]; exact nofun,
      by rw [source_tone]; exact nofun⟩,
    ⟨passes_of (by decide +kernel), by decide +kernel, by decide +kernel⟩,
    ⟨passes_of (by decide +kernel), by decide +kernel, by decide +kernel, source_phrase, by decide +kernel, by decide +kernel⟩,
    passes_of (by decide +kernel), by decide +kernel, by decide +kernel, source_stream, by decide +kernel, by decide +kernel,
    by decide +kernel, ⟨_, rfl, rfl⟩⟩

/-- The tag in use; rates for a phrase and for a stream; a phrase that is BUILDING; 48 entries; a stream's repeats; no such
stream; a bound stream. -/
theorem witness_CuePlayIsRefused :
    (playing7.Passes .cuePlay 5 playTone ∧ (readTemplate playTone 0).tag ∈ playing7.sched.live) ∧
      (opened.Passes .cuePlay 5 (playPhrase.set 19 4) ∧ (readTemplate (playPhrase.set 19 4) 0).rates ≠ none ∧
        (readTemplate (playPhrase.set 19 4) 0).source = .phrase 3) ∧
      ((withPhrase3 .building 0 note69 opened).Passes .cuePlay 5 playPhrase ∧
        ((withPhrase3 .building 0 note69 opened).phrase 3).state ≠ .ready) ∧
      (let s := crowded 48 (withPhrase3 .ready 0 note69 opened)
       s.Passes .cuePlay 5 playPhrase ∧ (s.phrase 3).state = .ready ∧ 48 ≤ s.sched.entries.length) ∧
      (opened.Passes .cuePlay 5 (playStream.set 19 4) ∧ (readTemplate (playStream.set 19 4) 0).rates ≠ none ∧
        (readTemplate (playStream.set 19 4) 0).source = .stream 1) ∧
      (opened.Passes .cuePlay 5 (playStream.set 18 0) ∧ (readTemplate (playStream.set 18 0) 0).repeats ≠ 1 ∧
        (readTemplate (playStream.set 18 0) 0).rates = none) ∧
      (opened.Passes .cuePlay 5 playStream ∧ opened.openSlot 1 = none) ∧
      (let s := withStream (stream1 .ready) opened
       s.Passes .cuePlay 5 playStream ∧ s.openSlot 1 = some 0 ∧ ∃ x, s.stream 0 = some x ∧ x.bound ≠ none) ∧
      ((crowded 48 offeredStream).Passes .cuePlay 5 playStream ∧ 48 ≤ (crowded 48 offeredStream).sched.entries.length) ∧
      (crowded 48 opened).Passes .cuePlay 5 playTone ∧ (readTemplate playTone 0).tag ∉ (crowded 48 opened).sched.live :=
  ⟨⟨passes_of (by decide +kernel), by decide +kernel⟩, ⟨passes_of (by decide +kernel), by decide +kernel, by decide +kernel⟩,
    ⟨passes_of (by decide +kernel), by decide +kernel⟩, ⟨passes_of (by decide +kernel), by decide +kernel, by decide +kernel⟩,
    ⟨passes_of (by decide +kernel), by decide +kernel, by decide +kernel⟩,
    ⟨passes_of (by decide +kernel), by decide +kernel, by decide +kernel⟩, ⟨passes_of (by decide +kernel), by decide +kernel⟩,
    ⟨passes_of (by decide +kernel), by decide +kernel, ⟨_, rfl, nofun⟩⟩, ⟨passes_of (by decide +kernel), by decide +kernel⟩,
    passes_of (by decide +kernel), by decide +kernel⟩

/-- A READY phrase and a stream cue between two others; an incoming cue. -/
theorem witness_RemovalWithoutSounding :
    (∃ l1 l2 e, (crowded 2 (withPhrase3 .ready 1 note69 (scheduled phrase9 .waiting))).sched.entries = l1 ++ e :: l2 ∧
        e.cue.source = .phrase 3 ∧ ∀ x ∈ l1 ++ l2, x.cue.tag ≠ e.cue.tag) ∧
      (∃ l1 l2 e, (crowded 2 (withStream (stream1 .ready) (scheduled stream6 .waiting))).sched.entries = l1 ++ e :: l2 ∧
        e.cue.source = .stream 1 ∧ ∀ x ∈ l1 ++ l2, x.cue.tag ≠ e.cue.tag) ∧
      ((handoff78 4).voice 0).state = .handoff ∧ ((handoff78 4).voice 0).incoming = some tone8 :=
  ⟨⟨[], _, _, rfl, rfl, by decide +kernel⟩, ⟨[], _, _, rfl, rfl, by decide +kernel⟩, rfl, rfl⟩

theorem witness_CuesEnterEnding :
    ((ending7 5).voice 0).state ≠ .active ∧
      (playing7.voice 0).state = .active ∧ (∃ k, (playing7.voice 0).current = some k ∧ k.cue.rates ≠ none) ∧
      ((streaming (stream1 .playing)).voice 6).state = .active ∧
      ∃ k, ((streaming (stream1 .playing)).voice 6).current = some k ∧ k.cue.source = .stream 1 :=
  ⟨by decide +kernel, rfl, ⟨_, rfl, nofun⟩, rfl, ⟨_, rfl, rfl⟩⟩

/-- Voice 0 ending at level 0 a cue of phrase 3, inside a call of it. -/
def endingInCall : State :=
  withPhrase3 .ready 2 note69
    (onVoice0
      { (ending7 0).voice 0 with
        current := some { cue := { phrase9 with endReason := some .stopped }, startTick := 0 }
        player :=
          some
            { inNote with
              top := some { phrase := 3, step := 0, nestedFault := false }
              call := some { phrase := 3, step := 0, savedShape := .square } } }
      [9])

theorem witness_ReleasesComplete :
    (∃ k, (endingInCall.voice 0).current = some k ∧ k.cue.endReason = some .stopped ∧ k.cue.source = .phrase 3) ∧
      ((endingInCall.voice 0).player.bind (·.call)).isSome ∧ endingInCall.inReset = false ∧
      (endingInCall.voice 0).state = .ending ∧ (endingInCall.voice 0).env.level = 0 ∧ (0 : VoiceId) ≠ 6 :=
  ⟨⟨_, rfl, rfl, rfl⟩, rfl, rfl, rfl, rfl, by decide⟩

/-- Voice 6 hands over from stream 2 of tag 5 to stream 1 of tag 6. -/
def streamHandoff : State :=
  { streaming (stream1 .ready) with
    alloc :=
      { opened.alloc with
        voices :=
          opened.alloc.voices.set 6
            { sounding { stream6 with tag := 5, source := .stream 2, priority := 1, endReason := some .stolen } with
              state := .handoff, releaseMode := some .fast, incoming := some stream6, player := none, osc := none
              env := { phase := .release, level := 4, target := 10, rateCount := 0 } } }
    sched := { opened.sched with live := [5, 6] } }

/-- A tag that is not live, of an entry, incoming, PLAYING and ENDING, for both requests. -/
theorem witness_CuesAreStoppedAndCutByTag :
    (opened.Passes .cueStop 5 [0, 0, 7] ∧ opened.Passes .cueCut 5 [0, 0, 7] ∧ opened.TagsOk ∧ 7 ∉ opened.sched.live) ∧
      (let s := scheduled tone7 .aligning
       s.Passes .cueStop 5 [0, 0, 7] ∧ s.Passes .cueCut 5 [0, 0, 7] ∧ s.TagsOk ∧ ∃ e ∈ s.sched.entries, e.cue.tag = 7) ∧
      (let s := handoff78 4
       s.Passes .cueStop 5 [0, 0, 8] ∧ s.Passes .cueCut 5 [0, 0, 8] ∧ s.TagsOk ∧
        (∃ c, (s.voice 0).incoming = some c ∧ c.tag = 8) ∧ ∃ k, (s.voice 0).current = some k ∧ k.cue.tag = 7) ∧
      (playing7.Passes .cueStop 5 [0, 0, 7] ∧ playing7.Passes .cueCut 5 [0, 0, 7] ∧ playing7.TagsOk ∧
        (∃ k, (playing7.voice 0).current = some k ∧ k.cue.tag = 7) ∧ (playing7.voice 0).state = .active) ∧
      (ending7 5).Passes .cueStop 5 [0, 0, 7] ∧ (ending7 5).TagsOk ∧ ((ending7 5).voice 0).state ≠ .active :=
  ⟨⟨passes_of (by decide +kernel), passes_of (by decide +kernel), (placed_of (by decide +kernel)).tags, by decide +kernel⟩,
    ⟨passes_of (by decide +kernel), passes_of (by decide +kernel), (placed_of (by decide +kernel)).tags, by decide +kernel⟩,
    ⟨passes_of (by decide +kernel), passes_of (by decide +kernel), (placed_of (by decide +kernel)).tags, ⟨_, rfl, rfl⟩,
      ⟨_, rfl, rfl⟩⟩,
    ⟨passes_of (by decide +kernel), passes_of (by decide +kernel), playing7_placed.tags, ⟨_, rfl, rfl⟩, rfl⟩,
    passes_of (by decide +kernel), (placed_of (by decide +kernel)).tags, by decide +kernel⟩

/-- A mask that names group 0; the mask of group 2 and of group 15; ALL; with cues in every kind of place. -/
theorem witness_CueStopByMask :
    (playing7.Passes .cueStop 5 [1, 0, 1] ∧ playing7.Placed ∧ (u16 [1, 0, 1] 1).getLsbD 0 = true) ∧
      (let s := crowded 1 (handoff78 4)
       s.Passes .cueStop 5 [1, 0, 4] ∧ s.Passes .cueStop 5 [1, 0x80, 0] ∧ s.Passes .cueStop 5 [2, 0, 0] ∧ s.Placed) ∧
      (u16 [1, 0, 4] 1).getLsbD 0 = false ∧ (u16 [1, 0, 4] 1).getLsbD tone7.group = true ∧
      (u16 [1, 0x80, 0] 1).getLsbD tone7.group = false :=
  ⟨⟨passes_of (by decide +kernel), playing7_placed, by decide⟩,
    ⟨passes_of (by decide +kernel), passes_of (by decide +kernel), passes_of (by decide +kernel), placed_of (by decide +kernel)⟩,
    by decide, by decide, by decide⟩

/-- Voice 0 as in a HANDOFF whose incoming cue is of group 3 and exclusive, another PLAYING cue of group 3 on voice 1. -/
def handoffGroups : State :=
  { opened with
    alloc :=
      { opened.alloc with
        voices :=
          (opened.alloc.voices.set 0
              { sounding { tone7 with endReason := some .stolen } with
                state := .handoff, releaseMode := some .fast, incoming := some { tone8 with group := 3, exclusive := true }
                env := { phase := .release, level := 4, target := 10, rateCount := 0 } }).set
            1 (sounding { tone7 with tag := 9, group := 3 }) }
    sched := { opened.sched with live := [7, 8, 9] } }

/-- R22, R40, R45: the departing cue alone is cut, the incoming one starts and chokes its group. -/
theorem test_cue_cut_departing :
    gives (.cueCut 5 [1, 0, 4]) handoffGroups
      (fun t => t.link.replies.map (·.body) == [[0x12, 0, 0, 1]] && (t.voice 0).current.any (fun k => k.cue.tag == 8) &&
        (t.voice 1).state == .ending) = true := by decide +kernel

/-- Both cues of a HANDOFF selected, the departing one alone, the incoming one alone; the flag of group 0; PLAYING. -/
theorem witness_CueCutByMask :
    (handoffGroups.Passes .cueCut 5 [1, 0, 4] ∧ handoffGroups.Passes .cueCut 5 [1, 0, 8] ∧ handoffGroups.Placed) ∧
    (playing7.Passes .cueCut 5 [1, 0, 1] ∧ playing7.Placed ∧ (u16 [1, 0, 1] 1).getLsbD 0 = true) ∧
      (let s := crowded 1 (handoff78 4)
       s.Passes .cueCut 5 [1, 0, 4] ∧ s.Passes .cueCut 5 [2, 0, 0] ∧ s.Placed) ∧
      playing7.Passes .cueCut 5 [1, 0, 4] ∧ ∀ v, (playing7.voice v).state ≠ .handoff :=
  ⟨⟨passes_of (by decide +kernel), passes_of (by decide +kernel), placed_of (by decide +kernel)⟩,
    ⟨passes_of (by decide +kernel), playing7_placed, by decide⟩,
    ⟨passes_of (by decide +kernel), passes_of (by decide +kernel), placed_of (by decide +kernel)⟩,
    passes_of (by decide +kernel), by decide +kernel⟩

/-- Neither field; no such cue; an entry; an incoming cue at the departing cue's priority and above it; PLAYING on voices 0
and 6; ENDING. -/
theorem witness_CueAdjustChanges :
    (playing7.Passes .cueAdjust 5 [0, 7, 0, 0, 0] ∧ playing7.Placed) ∧
      (opened.Passes .cueAdjust 5 [0, 7, 1, 15, 0] ∧ opened.Placed ∧ 7 ∉ opened.sched.live) ∧
      (let s := scheduled tone7 .waiting
       s.Passes .cueAdjust 5 [0, 7, 3, 0, 7] ∧ s.Placed ∧ ∃ e ∈ s.sched.entries, e.cue.tag = 7) ∧
      (let s := handoff78 4
       s.Passes .cueAdjust 5 [0, 8, 2, 0, 3] ∧ s.Passes .cueAdjust 5 [0, 8, 2, 0, 4] ∧ s.Placed ∧
        (∃ c, (s.voice 0).incoming = some c ∧ c.tag = 8) ∧ ∃ k, (s.voice 0).current = some k ∧ k.cue.priority = 3) ∧
      (playing7.Passes .cueAdjust 5 [0, 7, 3, 4, 6] ∧ (playing7.voice 0).state = .active ∧
        ∃ k, (playing7.voice 0).current = some k ∧ k.cue.tag = 7) ∧
      (let s := streaming (stream1 .playing)
       s.Passes .cueAdjust 5 [0, 6, 3, 4, 6] ∧ s.Placed ∧ (s.voice 6).state = .active ∧
        ∃ k, (s.voice 6).current = some k ∧ k.cue.tag = 6) ∧
      (ending7 5).Passes .cueAdjust 5 [0, 7, 3, 4, 6] ∧ (ending7 5).Placed ∧ ((ending7 5).voice 0).state ≠ .active :=
  ⟨⟨passes_of (by decide +kernel), playing7_placed⟩,
    ⟨passes_of (by decide +kernel), placed_of (by decide +kernel), by decide +kernel⟩,
    ⟨passes_of (by decide +kernel), placed_of (by decide +kernel), by decide +kernel⟩,
    ⟨passes_of (by decide +kernel), passes_of (by decide +kernel), placed_of (by decide +kernel), ⟨_, rfl, rfl⟩, ⟨_, rfl, rfl⟩⟩,
    ⟨passes_of (by decide +kernel), rfl, ⟨_, rfl, rfl⟩⟩,
    ⟨passes_of (by decide +kernel), placed_of (by decide +kernel), rfl, ⟨_, rfl, rfl⟩⟩,
    passes_of (by decide +kernel), placed_of (by decide +kernel), by decide +kernel⟩

theorem witness_CueQueryReads :
    (opened.Passes .cueQuery 5 [0, 7] ∧ opened.TagsOk ∧ 7 ∉ opened.sched.live) ∧
      (let s := scheduled { tone7 with deadline := some 9 } .waiting
       s.Passes .cueQuery 5 [0, 7] ∧ s.TagsOk ∧ ∃ e ∈ s.sched.entries, e.cue.tag = 7 ∧ e.state = .waiting) ∧
      ((handoff78 4).Passes .cueQuery 5 [0, 8] ∧ (handoff78 4).TagsOk ∧
        ∃ c, ((handoff78 4).voice 0).incoming = some c ∧ c.tag = 8) ∧
      (playing7.Passes .cueQuery 5 [0, 7] ∧ playing7.TagsOk ∧ (playing7.voice 0).state = .active) ∧
      (ending7 5).Passes .cueQuery 5 [0, 7] ∧ (ending7 5).TagsOk ∧
      ∃ k, ((ending7 5).voice 0).current = some k ∧ k.cue.tag = 7 ∧ k.cue.endReason = some .stopped :=
  ⟨⟨passes_of (by decide +kernel), (placed_of (by decide +kernel)).tags, by decide +kernel⟩,
    ⟨passes_of (by decide +kernel), (placed_of (by decide +kernel)).tags, by decide +kernel⟩,
    ⟨passes_of (by decide +kernel), (placed_of (by decide +kernel)).tags, ⟨_, rfl, rfl⟩⟩,
    ⟨passes_of (by decide +kernel), playing7_placed.tags, rfl⟩,
    passes_of (by decide +kernel), (placed_of (by decide +kernel)).tags, ⟨_, rfl, rfl, rfl⟩⟩

/-- Due entries without quantize and with it, and one that is not due; a deadline just reached, one not reached by its
state, and none. -/
theorem witness_DueEventsAndDeadlines :
    (let s := scheduled tone7 .scheduled
     s.inReset = false ∧
      ∃ e ∈ s.sched.entries, e.state = .scheduled ∧ (s.time.tick - e.cue.due).toNat < 2 ^ 31 ∧ e.cue.quantize = .off) ∧
      (let s := scheduled { tone7 with quantize := .bar, due := 0x80000001 } .scheduled
       ∃ e ∈ s.sched.entries, e.state = .scheduled ∧ (s.time.tick - e.cue.due).toNat < 2 ^ 31 ∧ e.cue.quantize = .bar) ∧
      (let s := scheduled { tone7 with due := 0x80000000 } .scheduled
       ∀ e ∈ s.sched.entries, ¬(s.time.tick - e.cue.due).toNat < 2 ^ 31) ∧
      (∃ l1 l2 e, (crowded 1 (scheduled { tone7 with deadline := some 0 } .waiting)).sched.entries = l1 ++ e :: l2 ∧
        (∀ x ∈ l1 ++ l2, x.cue.tag ≠ e.cue.tag) ∧ e.state = .waiting ∧ e.cue.deadline = some 0 ∧
        (opened.time.tick - 0).toNat < 2 ^ 31) ∧
      ∃ l1 l2 e, (scheduled tone7 .waiting).sched.entries = l1 ++ e :: l2 ∧
        (∀ x ∈ l1 ++ l2, x.cue.tag ≠ e.cue.tag) ∧ e.cue.deadline = none :=
  ⟨by decide +kernel, by decide +kernel, by decide +kernel,
    ⟨[], _, _, rfl, by decide +kernel, rfl, rfl, by decide +kernel⟩, ⟨[], _, _, rfl, by simp, rfl⟩⟩

/-! ### The same for phrases, the map, the settings of the mixer and the clock -/

theorem witness_PhrasesAreBuiltAndDropped :
    (let s := withPhrase3 .building 0 note69 opened
     s.Passes .phraseBegin 5 [3, 3, 255, 255, 1] ∧ (s.phrase 3).state ≠ .empty ∧
      s.Passes .phraseBegin 5 [31, 0, 0, 0, 0] ∧ (s.phrase 31).state = .empty ∧ s.store.build ≠ none ∧
      s.Passes .phraseEnd 5 [] ∧ s.store.build = some 3 ∧
      (∃ i, i < (s.phrase 3).stepCount ∧ ∃ n d v g, s.store.stepAt (s.phrase 3) i = some (.note n d v g)) ∧
      s.Passes .phraseDrop 5 [3] ∧ (s.phrase 3).refs = 0) ∧
      (opened.Passes .phraseBegin 5 [31, 3, 0, 0, 1] ∧ (opened.phrase 31).state = .empty ∧ opened.store.build = none ∧
        opened.Passes .phraseEnd 5 [] ∧ opened.Passes .phraseDrop 5 [31]) ∧
      (let s := withPhrase3 .building 0 (.mark 1) opened
       s.Passes .phraseEnd 5 [] ∧ s.store.build = some 3 ∧
        ∀ i, i < (s.phrase 3).stepCount → s.store.stepAt (s.phrase 3) i = some (.mark 1)) ∧
      (let s := withPhrase3 .ready 1 note69 opened
       s.Passes .phraseDrop 5 [3] ∧ (s.phrase 3).state ≠ .empty ∧ 0 < (s.phrase 3).refs) :=
  ⟨⟨passes_of (by decide +kernel), by decide +kernel, passes_of (by decide +kernel), by decide +kernel, by decide +kernel,
      passes_of (by decide +kernel), rfl, ⟨0, by decide +kernel, 69, 12, 15, 8, by decide +kernel⟩,
      passes_of (by decide +kernel), by decide +kernel⟩,
    ⟨passes_of (by decide +kernel), by decide +kernel, rfl, passes_of (by decide +kernel), passes_of (by decide +kernel)⟩,
    ⟨passes_of (by decide +kernel), rfl, by decide +kernel⟩,
    passes_of (by decide +kernel), by decide +kernel, by decide +kernel⟩

/-- Phrases 0 to `full − 1` of 256 steps and a BUILDING phrase 31 with `n` steps on the pages after theirs. -/
def storeWith (full n : Nat) : PhraseStore :=
  let header : Header := { shape := .square, rates := { attack := 0, release := 0 }, tempoRelative := false }
  let run (first count : Nat) : List PageId := (List.range count).map fun k => Fin.ofNat 64 (first + k)
  { slots :=
      Vector.ofFn fun id : Fin 32 =>
        if id.val < full then
          { state := .ready, header := some header, stepCount := 256, pages := run (16 * id.val) 16, refs := 0 }
        else if id.val = 31 then
          { state := .building, header := some header, stepCount := n, pages := run (16 * full) (pagesFor n), refs := 0 }
        else PhraseSlot.empty
    pool := opened.store.pool
    freePages := allPages.drop (16 * full + pagesFor n)
    build := some 31 }

/-- A part with this store. -/
def stored (ps : PhraseStore) : State :=
  { opened with store := ps }

theorem store_ok (ps : PhraseStore)
    (h : decide ((ps.freePages ++ ps.slots.toList.flatMap (·.pages)).Perm allPages) &&
      (ps.slots.toList.all fun p =>
        (if p.state = .empty then p.header.isNone && p.stepCount == 0 else p.header.isSome) &&
          p.pages.length == pagesFor p.stepCount && decide (p.stepCount ≤ 256)) &&
      ((List.finRange 32).all fun id => (ps.slots[id].state == .building) == (ps.build == some id)) = true) : ps.Ok := by
  simp only [Bool.and_eq_true, decide_eq_true_eq, List.all_eq_true, beq_iff_eq] at h
  obtain ⟨⟨h1, h2⟩, h3⟩ := h
  refine ⟨h1, fun p hp => ?_, fun id => ?_⟩
  · obtain ⟨⟨a, b⟩, c⟩ := h2 p hp
    refine ⟨fun e => ?_, fun e => ?_, b, c⟩
    · simpa [e] using a
    · simpa [e] using a
  · have := h3 id (List.mem_finRange id)
    rw [Bool.eq_iff_iff] at this
    simpa using this

/-- No build context; 256 steps and one more; no page for the seventeenth step; a bad step behind a good one; steps at the
ends of their ranges that cross into a new page. -/
theorem witness_PhraseAddAppends :
    (opened.Passes .phraseAdd 5 [1, 0, 0, 0, 1, 0, 1] ∧ opened.store.Ok ∧ opened.store.build = none) ∧
      ((stored (storeWith 0 256)).Passes .phraseAdd 5 [1, 1, 0, 0, 1, 0, 0] ∧ (storeWith 0 256).Ok ∧
        256 < ((stored (storeWith 0 256)).phrase 31).stepCount + 1) ∧
      ((stored (storeWith 4 0)).Passes .phraseAdd 5 [1, 1, 0, 0, 1, 0, 0] ∧ (storeWith 4 0).Ok ∧
        (storeWith 4 0).freePages.length < (0 + 1 + 15) / 16 - 0) ∧
      ((stored (storeWith 1 15)).Passes .phraseAdd 5 [2, 3, 255, 0, 0, 0, 0, 0, 128, 0, 1, 0, 1] ∧ (storeWith 1 15).Ok ∧
        readStep [2, 3, 255, 0, 0, 0, 0, 0, 128, 0, 1, 0, 1] 1 31 ≠ none ∧
        readStep [2, 3, 255, 0, 0, 0, 0, 0, 128, 0, 1, 0, 1] 7 31 = none) ∧
      (stored (storeWith 1 15)).Passes .phraseAdd 5 [2, 0, 127, 0x0F, 0xFF, 15, 8, 4, 3, 0, 0, 0, 0] ∧
      readStep [2, 0, 127, 0x0F, 0xFF, 15, 8, 4, 3, 0, 0, 0, 0] 1 31 = some (.note 127 4095 15 8) ∧
      readStep [2, 0, 127, 0x0F, 0xFF, 15, 8, 4, 3, 0, 0, 0, 0] 7 31 = some (.shape .noise) ∧
      readStep [1, 2, 31, 0, 0, 0, 0] 1 31 = none ∧ readStep [1, 2, 30, 0, 0, 0, 0] 1 31 = some (.call 30) ∧
      readStep [1, 5, 0, 0, 1, 0, 1] 1 31 = none :=
  ⟨⟨passes_of (by decide +kernel), store_ok _ (by decide +kernel), rfl⟩,
    ⟨passes_of (by decide +kernel), store_ok _ (by decide +kernel), by decide +kernel⟩,
    ⟨passes_of (by decide +kernel), store_ok _ (by decide +kernel), by decide +kernel⟩,
    ⟨passes_of (by decide +kernel), store_ok _ (by decide +kernel), by decide +kernel, by decide +kernel⟩,
    passes_of (by decide +kernel), by decide +kernel, by decide +kernel, by decide +kernel, by decide +kernel, by decide +kernel⟩

theorem witness_ReadsChangeNothing :
    State.reset.Passes .status 5 [] ∧ (inSession .stalled).Passes .status 0 [] ∧ opened.Passes .phraseInfo 5 [31] ∧
      opened.Passes .mapRead 5 [112, 16] ∧ opened.Passes .mapRead 5 [127, 2] ∧ opened.Passes .clockRead 5 [] ∧
      (edgeAsked .internal).Passes .clockRead 5 [] ∧ (seekingAt 2000).Passes .clockRead 5 [] :=
  ⟨passes_of (by decide +kernel), passes_of (by decide +kernel), passes_of (by decide +kernel), passes_of (by decide +kernel),
    passes_of (by decide +kernel), passes_of (by decide +kernel), passes_of (by decide +kernel), passes_of (by decide +kernel)⟩

/-- A run past entry 127; values 1 and 31 behind a good one; 0 and 32 up to entry 127. -/
theorem witness_MapIsWrittenAndRestored :
    (opened.Passes .mapWrite 5 [127, 2, 0, 32, 0, 32] ∧ 127 < (127 : Byte).toNat + (2 : Byte).toNat - 1) ∧
      (opened.Passes .mapWrite 5 [126, 2, 0, 32, 0, 1] ∧ opened.Passes .mapWrite 5 [126, 2, 0, 0, 0, 31] ∧
        (126 : Byte).toNat + (2 : Byte).toNat - 1 ≤ 127) ∧
      opened.Passes .mapWrite 5 [126, 2, 0, 0, 0, 32] ∧ opened.Passes .mapRestore 5 [] :=
  ⟨⟨passes_of (by decide +kernel), by decide⟩, ⟨passes_of (by decide +kernel), passes_of (by decide +kernel), by decide⟩,
    passes_of (by decide +kernel), passes_of (by decide +kernel)⟩

/-- Every field present at the top of its range, and none. -/
theorem witness_OutputSettingsAreSet :
    (streaming (stream1 .playing)).Passes .outputSet 5 [15, 31, 15, 1, 1] ∧ opened.Passes .outputSet 5 [0, 255, 255, 255, 255] :=
  ⟨passes_of (by decide +kernel), passes_of (by decide +kernel)⟩

theorem witness_ClockIsSet :
    opened.Passes .clockSet 5 [7, 0x13, 0x88, 16, 1] ∧ opened.Passes .clockSet 5 [3, 0, 20, 1, 0] ∧
      (edgeAsked .sync).Passes .clockSet 5 [4, 0, 0, 0, 0] ∧ opened.Passes .clockBar 5 [] ∧
      (edgeAsked .internal).Passes .clockBar 5 [] ∧ (edgeAsked .internal).Passes .clockSet 5 [1, 0, 20, 0, 0] :=
  ⟨passes_of (by decide +kernel), passes_of (by decide +kernel), passes_of (by decide +kernel), passes_of (by decide +kernel),
    passes_of (by decide +kernel), passes_of (by decide +kernel)⟩

/-! ### The same for streams and triggers -/

/-- A stream in slot 0 with its cue on voice 6, and no free block. -/
def noRoom (t : OpenStream) : State :=
  { streaming t with streams := { (streaming t).streams with freeBlocks := [] } }

/-- The stream cue plays and its stream is STARVED under PAUSE, its starve timer at its limit. -/
def starvedStream : OpenStream :=
  { stream1 .starved with filled := [], starve := some 2000 }

/-- The same one advance short of the limit. -/
def waitingStream : OpenStream :=
  { stream1 .starved with filled := [], starve := some 1999 }

/-- Not open; LAST; the ring full; a repeat at distances 1 and 32, and 33; a block that fills, one that resumes, and one that
does neither; the starve timer at 1999, and at 2000, where the limit ends the cue first. -/
theorem witness_StreamDataIsTaken :
    (opened.Passes .streamData 5 [1, 0, 0, 9] ∧ opened.openSlot 1 = none) ∧
      (let s := streaming { stream1 .playing with last := true }
       s.Passes .streamData 5 [1, 0, 1, 9] ∧ s.openSlot 1 = some 0 ∧ ∃ t, s.stream 0 = some t ∧ t.last = true) ∧
      (let s := noRoom (stream1 .playing)
       s.Passes .streamData 5 [1, 0, 1, 9] ∧ s.openSlot 1 = some 0 ∧ s.streams.freeBlocks = [] ∧
        ∃ t, s.stream 0 = some t ∧ t.last = false ∧ t.expected = 1) ∧
      (let s := streaming (stream1 .playing)
       s.Passes .streamData 5 [1, 0, 0, 9] ∧ s.Passes .streamData 5 [1, 0xFF, 0xE1, 9] ∧
        s.Passes .streamData 5 [1, 0xFF, 0xE0, 9] ∧ (1 - 0 : Half).toNat = 1 ∧ (1 - 0xFFE1 : Half).toNat = 32 ∧
        (1 - 0xFFE0 : Half).toNat = 33 ∧ s.Passes .streamData 5 [1, 0, 1, 9] ∧
        ∃ b rest t, s.streams.freeBlocks = b :: rest ∧ s.stream 0 = some t ∧ t.last = false ∧ t.state = .playing) ∧
      (let s := withStream { stream1 .filling with filled := [], expected := 0, bound := none, read := none } opened
       s.Passes .streamData 5 [1, 0, 0, 9] ∧ s.openSlot 1 = some 0 ∧
        ∃ b rest t, s.streams.freeBlocks = b :: rest ∧ s.stream 0 = some t ∧ t.last = false ∧ t.state = .filling ∧
          t.expected = 0 ∧ t.prefill ≤ t.filled.length + 1) ∧
      let s := streaming waitingStream
      s.Passes .streamData 5 [1, 0, 1, 9] ∧ (s.heard.limitFirst 1).stream 0 = s.stream 0 ∧ s.openSlot 1 = some 0 ∧
        ((streaming starvedStream).Passes .streamData 5 [1, 0, 1, 9] ∧
          ((streaming starvedStream).heard.limitFirst 1).openSlot 1 = some 0 ∧
          ((streaming starvedStream).heard.limitFirst 1).boundPlaying starvedStream = false) ∧
        ∃ b rest t, s.streams.freeBlocks = b :: rest ∧ s.stream 0 = some t ∧ t.last = false ∧ t.state = .starved ∧
          t.policy = .pause ∧ s.boundPlaying t = true ∧ t.prefill ≤ t.filled.length + 1 :=
  ⟨⟨passes_of (by decide +kernel), by decide +kernel⟩, ⟨passes_of (by decide +kernel), by decide +kernel, ⟨_, rfl, rfl⟩⟩,
    ⟨passes_of (by decide +kernel), by decide +kernel, rfl, ⟨_, rfl, rfl, rfl⟩⟩,
    ⟨passes_of (by decide +kernel), passes_of (by decide +kernel), passes_of (by decide +kernel), by decide, by decide, by decide,
      passes_of (by decide +kernel), ⟨_, _, _, rfl, rfl, rfl, rfl⟩⟩,
    ⟨passes_of (by decide +kernel), by decide +kernel, ⟨_, _, _, rfl, rfl, rfl, rfl, rfl, by decide⟩⟩,
    passes_of (by decide +kernel), by decide +kernel, by decide +kernel, ⟨passes_of (by decide +kernel), by decide +kernel, by decide +kernel⟩,
    ⟨_, _, _, rfl, rfl, rfl, rfl, rfl, by decide +kernel, by decide⟩⟩

/-- Two open streams, of ids 1 and 2. -/
def twoStreams : State :=
  { offeredStream with
    streams :=
      { offeredStream.streams with
        slots := offeredStream.streams.slots.set 1 (some { stream1 .filling with id := 2, filled := [], bound := none }) } }

/-- STREAM.OPEN of an open id, with no slot, and at the ends of its ranges; STREAM.END with no stream, with LAST, from
FILLING, from PLAYING, and in STARVED at the limit, and below it without a block and with one; STREAM.ABORT with no stream,
unbound, and bound in each place. -/
theorem witness_StreamsOpenEndAndClose :
    (offeredStream.Passes .streamOpen 5 [1, 0, 32, 1] ∧ (∃ t, offeredStream.stream 0 = some t ∧ t.id = 1) ∧
        twoStreams.Passes .streamOpen 5 [3, 0, 1, 0] ∧ twoStreams.stream 0 ≠ none ∧ twoStreams.stream 1 ≠ none ∧
        opened.Passes .streamOpen 5 [255, 3, 32, 1] ∧ (∀ j, opened.stream j = none) ∧
        offeredStream.Passes .streamOpen 5 [2, 0, 1, 0] ∧ offeredStream.stream 1 = none) ∧
      (opened.Passes .streamEnd 5 [1] ∧ opened.openSlot 1 = none ∧
        (streaming { stream1 .playing with last := true }).Passes .streamEnd 5 [1] ∧
        twoStreams.Passes .streamEnd 5 [2] ∧ twoStreams.openSlot 2 = some 1 ∧
        (streaming (stream1 .playing)).Passes .streamEnd 5 [1] ∧
        ((streaming starvedStream).Passes .streamEnd 5 [1] ∧
          ((streaming starvedStream).heard.limitFirst 1).openSlot 1 = some 0 ∧
          ((streaming starvedStream).heard.limitFirst 1).boundPlaying starvedStream = false) ∧
        ((streaming waitingStream).Passes .streamEnd 5 [1] ∧
          ((streaming waitingStream).heard.limitFirst 1).openSlot 1 = some 0 ∧
          ((streaming waitingStream).heard.limitFirst 1).boundPlaying waitingStream = true) ∧
        (streaming { waitingStream with filled := [0] }).Passes .streamEnd 5 [1]) ∧
      (opened.Passes .streamAbort 5 [1] ∧ opened.Placed ∧ offeredStream.Passes .streamAbort 5 [1] ∧ offeredStream.Placed ∧
        offeredStream.openSlot 1 = some 0) ∧
      (let s := withStream (stream1 .ready) (scheduled stream6 .waiting)
       s.Passes .streamAbort 5 [1] ∧ s.Placed ∧ ∃ e ∈ s.sched.entries, e.cue.tag = 6) ∧
      (streamHandoff.Passes .streamAbort 5 [1] ∧ streamHandoff.Placed ∧
        ∃ c, (streamHandoff.voice 6).incoming = some c ∧ c.tag = 6) ∧
      (streaming (stream1 .playing)).Passes .streamAbort 5 [1] ∧ (streaming (stream1 .playing)).Placed ∧
      ∃ k, ((streaming (stream1 .playing)).voice 6).current = some k ∧ k.cue.tag = 6 :=
  ⟨⟨passes_of (by decide +kernel), ⟨_, rfl, rfl⟩, passes_of (by decide +kernel), by decide +kernel, by decide +kernel,
      passes_of (by decide +kernel), by decide +kernel, passes_of (by decide +kernel), by decide +kernel⟩,
    ⟨passes_of (by decide +kernel), by decide +kernel, passes_of (by decide +kernel), passes_of (by decide +kernel),
      by decide +kernel, passes_of (by decide +kernel), ⟨passes_of (by decide +kernel), by decide +kernel, by decide +kernel⟩,
      ⟨passes_of (by decide +kernel), by decide +kernel, by decide +kernel⟩, passes_of (by decide +kernel)⟩,
    ⟨passes_of (by decide +kernel), placed_of (by decide +kernel), passes_of (by decide +kernel), placed_of (by decide +kernel),
      by decide +kernel⟩,
    ⟨passes_of (by decide +kernel), placed_of (by decide +kernel), by decide +kernel⟩,
    ⟨passes_of (by decide +kernel), placed_of (by decide +kernel), ⟨_, rfl, rfl⟩⟩,
    passes_of (by decide +kernel), placed_of (by decide +kernel), ⟨_, rfl, rfl⟩⟩

theorem witness_StreamsStarveAndRunOut :
    ((streaming starvedStream).inReset = false ∧ (streaming starvedStream).stream 0 = some starvedStream ∧
        starvedStream.state = .starved ∧ starvedStream.starve = some 2000) ∧
      ∃ k t d r, ((atBlockEnd (stream1 .playing)).voice 6).current = some k ∧
        (atBlockEnd (stream1 .playing)).boundSlot k.cue.tag = some 0 ∧
        (atBlockEnd (stream1 .playing)).stream 0 = some t ∧ t.state = .playing ∧ t.filled = 0 :: [] ∧
        (atBlockEnd (stream1 .playing)).streams.blocks[0] = some d ∧ t.read = some r ∧ r.holdCount = 4 - t.rate.val ∧
        r.index + 1 = d.data.length :=
  ⟨⟨rfl, rfl, rfl, rfl⟩, _, _, _, _, rfl, by decide +kernel, rfl, rfl, rfl, rfl, rfl, rfl, rfl⟩

/-- A template of a stream; one that starts AT a tick; rates with a phrase; rates with a tone. -/
theorem witness_TriggersAreArmedAndDisarmed :
    (opened.Passes .triggerArm 5 ([3, 1, 2, 1, 1] ++ playTone.set 2 3) ∧
        u8 (([3, 1, 2, 1, 1] : List Byte) ++ playTone.set 2 3) 7 = 3) ∧
      (opened.Passes .triggerArm 5 ([0, 0, 0, 0, 0] ++ playTone.set 10 1) ∧
        u8 (([0, 0, 0, 0, 0] : List Byte) ++ playTone.set 10 1) 15 = 1) ∧
      (opened.Passes .triggerArm 5 ([0, 0, 0, 0, 0] ++ playPhrase.set 19 4) ∧
        (u8 (([0, 0, 0, 0, 0] : List Byte) ++ playPhrase.set 19 4) 24).getLsbD 2 = true) ∧
      opened.Passes .triggerArm 5 ([3, 1, 2, 1, 1] ++ playTone.set 19 4) ∧ opened.Passes .triggerDisarm 5 [0, 3] ∧
      opened.Passes .triggerDisarm 5 [1, 255] :=
  ⟨⟨passes_of (by decide +kernel), by decide⟩, ⟨passes_of (by decide +kernel), by decide⟩,
    ⟨passes_of (by decide +kernel), by decide⟩, passes_of (by decide +kernel), passes_of (by decide +kernel),
    passes_of (by decide +kernel)⟩

/-- Voice 0 hands over from tag 8 to tag 7. -/
def handoff87 : State :=
  onVoice0
    { sounding { tone8 with priority := 2, endReason := some .stolen } with
      state := .handoff, releaseMode := some .fast, incoming := some tone7
      env := { phase := .release, level := 4, target := 10, rateCount := 0 } }
    [8, 7]

/-- An edge on each line; an empty slot; the armed slot fires on the edge of its line and not on the other; its tag is not
live, and live with both policies, held by an entry, an incoming place and a current place; its phrase is READY, and the
schedule full. -/
theorem witness_FiringServesSlots :
    (armedFor 0 0 (some false) opened).triggers.trg0.edge = some false ∧
      (armedFor 0 0 (some false) opened).inReset = false ∧
      ({ opened with triggers := { opened.triggers with trg1 := { opened.triggers.trg1 with edge := some true } } } :
        State).triggers.trg1.edge = some true ∧
      (armedFor 0 0 none opened).triggers.slots[(1 : TriggerId)] = none ∧
      (∃ a, (armedFor 0 0 none opened).triggers.slots[(2 : TriggerId)] = some a ∧ a.line = .trg0 ∧ a.edge = .fall ∧
        a.template.source = .tone 69 100 .square ∧ a.template.tag ∉ opened.sched.live) ∧
      (∃ a, (armedFor 1 0 none playing7).triggers.slots[(2 : TriggerId)] = some a ∧ a.policy = .ignore ∧
        a.mode = .repeating ∧ a.template.tag ∈ (armedFor 1 0 none playing7).sched.live) ∧
      (∃ a, (armedFor 0 1 none playing7).triggers.slots[(2 : TriggerId)] = some a ∧ a.policy = .restart ∧
        a.mode = .once ∧ a.template.tag ∈ (armedFor 0 1 none playing7).sched.live) ∧
      (armedFor 0 1 none playing7).Placed ∧
      (let s := armedFor 0 1 none (scheduled tone7 .waiting)
       s.Placed ∧ ∃ e ∈ s.sched.entries, e.cue.tag = 7) ∧
      (let s := armedFor 0 1 none handoff87
       s.Placed ∧ ∃ c, (s.voice 0).incoming = some c ∧ c.tag = 7) ∧
      (∃ k, ((armedFor 0 1 none playing7).voice 0).current = some k ∧ k.cue.tag = 7) ∧ 48 ≤ (armedFor 0 0 none (crowded 48 opened)).sched.entries.length ∧
      (readTemplate playPhrase 0).source = .phrase 3 ∧ (readTemplate playPhrase 0).rates = none :=
  ⟨by decide +kernel, by decide +kernel, rfl, by decide +kernel, ⟨_, rfl, by decide +kernel⟩, ⟨_, rfl, by decide +kernel⟩,
    ⟨_, rfl, by decide +kernel⟩, placed_of (by decide +kernel), ⟨placed_of (by decide +kernel), by decide +kernel⟩,
    ⟨placed_of (by decide +kernel), _, rfl, rfl⟩, ⟨_, rfl, rfl⟩, by decide +kernel, source_phrase, by decide +kernel⟩

/-! ### The same for time -/

theorem witness_TickAdvances :
    (opened.inReset = false ∧ opened.outstanding = none) ∧
      (let s : State := { seekingAt 1999 with
        time := { (seekingAt 1999).time with syncLine := { level := false, last := true } } }
       s.outstanding = none ∧ s.time.source = .external) ∧
      playing7.outstanding = none ∧ (streaming (stream1 .playing)).outstanding = none := by decide +kernel

theorem witness_BeatEdgesAreTaken :
    (edgeAsked .internal).inReset = false ∧ (edgeAsked .internal).time.beatAsk = some .internal ∧
      (edgeAsked .sync).inReset = false ∧ (edgeAsked .sync).time.beatAsk = some .sync ∧
      (seekingAt 2000).inReset = false ∧ (seekingAt 2000).time.sync = .seeking ∧ (seekingAt 2000).time.beatAsk = none ∧
      (seekingAt 2000).time.lossReference = some 0 ∧
      4 * (seekingAt 2000).time.effectiveBeat ≤ ((seekingAt 2000).time.tick - 0).toNat := by decide +kernel

/-! ### The same for voices -/

theorem witness_PassesServeInOrder :
    (passAsked (crowded 2 (scheduled tone7 .waiting))).inReset = false ∧
      0 < (passAsked (crowded 2 (scheduled tone7 .waiting))).alloc.passes := by decide +kernel

/-- Every synth voice plays a cue of this priority, with its own tag from 10, from this start tick on. -/
def allPlaying (priority : Nat) (s : State) : State :=
  { s with
    alloc :=
      { s.alloc with
        voices :=
          Vector.ofFn fun v : Fin 7 =>
            if v.val < 6 then
              { sounding { tone7 with tag := halfOf (10 + v.val), priority := priority } with
                current :=
                  some
                    { cue := { tone7 with tag := halfOf (10 + v.val), priority := priority }
                      startTick := BitVec.ofNat 32 (9 - v.val) } }
            else Voice.idle }
    sched := { s.sched with live := s.sched.live ++ (List.range 6).map fun k => halfOf (10 + k) } }

/-- A stream not READY; an IDLE voice; the candidate that started earliest among equals; no candidate at equal priority,
with a window and without. -/
theorem witness_PassesPlaceStealOrLeave :
    (∃ l1 l2 e, (withStream (stream1 .filling) (scheduled stream6 .waiting)).sched.entries = l1 ++ e :: l2 ∧
        e.state = .waiting ∧ e.cue.source = .stream 1 ∧
        (withStream (stream1 .filling) (scheduled stream6 .waiting)).boundSlot e.cue.tag = some 0 ∧
        (withStream (stream1 .filling) (scheduled stream6 .waiting)).stream 0 = some (stream1 .filling)) ∧
      (∃ l1 l2 e, (crowded 2 (scheduled tone7 .waiting)).sched.entries = l1 ++ e :: l2 ∧
        (∀ x ∈ l1 ++ l2, x.cue.tag ≠ e.cue.tag) ∧ e.state = .waiting ∧
        ((crowded 2 (scheduled tone7 .waiting)).voice 0).state = .idle) ∧
      (let s := allPlaying 2 (scheduled tone7 .waiting)
       (∀ v : VoiceId, v.val < 6 → (s.voice v).state = .active) ∧
        (∃ k, (s.voice 5).current = some k ∧ k.cue.priority < tone7.priority ∧
          ∀ u : VoiceId, u.val < 5 →
            (s.voice u).current.any (fun j => k.cue.priority == j.cue.priority && earlier k.startTick j.startTick) = true)) ∧
      let s := allPlaying 3 (scheduled tone7 .waiting)
      (∀ v : VoiceId, v.val < 6 →
        (s.voice v).state = .active ∧ (s.voice v).current.any (fun k => tone7.priority ≤ k.cue.priority) = true) ∧
        tone7.window ≠ 0 ∧
        (∃ l1 l2 e, (allPlaying 3 (scheduled { tone7 with window := 0 } .waiting)).sched.entries = l1 ++ e :: l2 ∧
          e.state = .waiting ∧ e.cue.window = 0 ∧ e.cue.priority = tone7.priority) :=
  ⟨⟨[], _, _, rfl, rfl, rfl, by decide +kernel, rfl⟩, ⟨[], _, _, rfl, by decide +kernel, rfl, by decide +kernel⟩,
    ⟨by decide +kernel, _, rfl, by decide +kernel, by decide +kernel⟩, by decide +kernel, by decide,
    [], [], _, rfl, rfl, rfl, rfl⟩

theorem witness_HandoffsComplete :
    ((handoff78 0).inReset = false ∧ ((handoff78 0).voice 0).state = .handoff ∧ ((handoff78 0).voice 0).env.level = 0 ∧
        ((handoff78 0).voice 0).incoming = some tone8 ∧ ∃ k, ((handoff78 0).voice 0).current = some k) ∧
      (∃ k, (playing7.voice 0).current = some k) ∧ (playing7.voice 0).incoming = none ∧
      (∃ k, ((ending7 5).voice 0).current = some k) ∧ ((ending7 5).voice 0).releaseMode = some .normal :=
  ⟨⟨rfl, rfl, rfl, rfl, _, rfl⟩, ⟨_, rfl⟩, rfl, ⟨_, rfl⟩, rfl⟩

/-- Tones and noises with a period and without; a phrase; a stream with a block and without; an exclusive cue of a group. -/
theorem witness_CuesStart :
    ((0 : VoiceId) ≠ 6 ∧ tone7.source = .tone 69 100 .square ∧ tone7.rates = some { attack := 0, release := 4 }) ∧
      ({ tone7 with source := .noise 0 1 } : Cue).source = .noise 0 1 ∧ phrase9.source = .phrase 3 ∧
      (∃ t, (withStream (stream1 .ready) opened).boundSlot stream6.tag = some 0 ∧
        (withStream (stream1 .ready) opened).stream 0 = some t ∧ t.filled ≠ []) ∧
      (∃ t, (withStream { stream1 .ready with filled := [] } opened).boundSlot stream6.tag = some 0 ∧
        (withStream { stream1 .ready with filled := [] } opened).stream 0 = some t ∧ t.filled = []) ∧
      ({ tone8 with exclusive := true } : Cue).exclusive = true ∧ tone8.group ≠ 0 ∧ tone8.exclusive = false :=
  ⟨⟨by decide, rfl, rfl⟩, rfl, rfl, ⟨_, by decide +kernel, rfl, nofun⟩, ⟨_, by decide +kernel, rfl, rfl⟩, rfl, by decide, rfl⟩

theorem witness_TimedStepsStart :
    opened.pitchMap[(69 : Note)] ≠ 0 ∧
      ({ opened with pitchMap := opened.pitchMap.set 69 0 } : State).pitchMap[(69 : Note)] = 0 := by decide +kernel

/-- Voice 0 plays phrase 3, whose only step is this one, at step `i` of the top phrase with these repeats left, or inside a
call at step `j`. -/
def inPhrase (step : Step) (i repeats : Nat) (j : Option Nat) : State :=
  withPhrase3 .ready 2 step
    (onVoice0
      { sounding phrase9 with
        player :=
          some
            { inNote with
              top := some { phrase := 3, step := i, nestedFault := false }, repeatsLeft := repeats
              call := j.map fun k => { phrase := 3, step := k, savedShape := .noise } } }
      [9])

/-- The step a run meets at that place. -/
def stepMet (step : Step) (i : Nat) : Option Step :=
  let s := inPhrase step i 1 none
  if i < (s.phrase 3).stepCount then s.store.stepAt (s.phrase 3) i else none

/-- A step at its end; a TONE with no phrase; every kind of step, outside a call and inside one; the end of a called phrase;
the end of a pass with 0, 1 and 2 repeats left. -/
theorem witness_StepsRun :
    ((noteOver 5 0).inReset = false ∧ ((noteOver 5 0).voice 0).state = .active ∧
        ∃ p, ((noteOver 5 0).voice 0).player = some p ∧ p.stepTicks = some 0) ∧
      (∃ k p, (playing7.voice 0).current = some k ∧ (playing7.voice 0).player = some p ∧ p.call = none ∧ p.top = none) ∧
      (stepMet note69 0 = some note69 ∧ stepMet (.rest 1) 0 = some (.rest 1) ∧ stepMet (.shape .noise) 0 = some (.shape .noise) ∧
        stepMet (.mark 9) 0 = some (.mark 9) ∧ stepMet (.call 3) 0 = some (.call 3) ∧ stepMet (.call 4) 0 = some (.call 4) ∧
        stepMet note69 1 = none) ∧
      ((opened.phrase 4).state ≠ .ready ∧ ((inPhrase (.call 3) 0 1 none).phrase 3).state = .ready) ∧
      (∀ r ∈ [0, 1, 2], ∃ k p top, ((inPhrase note69 1 r none).voice 0).current = some k ∧
        ((inPhrase note69 1 r none).voice 0).player = some p ∧ p.top = some top ∧ p.call = none ∧ p.repeatsLeft = r) ∧
      (∃ k p top call, ((inPhrase (.call 3) 0 1 (some 0)).voice 0).current = some k ∧
        ((inPhrase (.call 3) 0 1 (some 0)).voice 0).player = some p ∧ p.top = some top ∧ p.call = some call ∧
        top.nestedFault = false) ∧
      ∃ k p top call, ((inPhrase (.call 3) 0 1 (some 1)).voice 0).current = some k ∧
        ((inPhrase (.call 3) 0 1 (some 1)).voice 0).player = some p ∧ p.top = some top ∧ p.call = some call :=
  ⟨⟨rfl, rfl, _, rfl, rfl⟩, ⟨_, _, rfl, rfl, rfl, rfl⟩, by decide +kernel, by decide +kernel,
    fun r _ => ⟨_, _, _, rfl, rfl, rfl, rfl, rfl⟩, ⟨_, _, _, _, rfl, rfl, rfl, rfl, rfl⟩, _, _, _, _, rfl, rfl, rfl, rfl⟩

/-- Voice 0 with this envelope and these rates. -/
def enveloped (e : Envelope) (rates : Rates) : State :=
  onVoice0 { sounding tone7 with env := e, player := some { inNote with rates := rates } } [7]

/-- An attack from below to its target, and from above; a release from 1; HOLD; each of the three below its rate; a gate
with 1 step tick left; a duck count of 8. -/
theorem witness_LevelsMove :
    (let s := enveloped { phase := .attack, level := 14, target := 15, rateCount := 255 } { attack := 255, release := 1 }
     s.inReset = false ∧ (s.voice 0).env.level < (s.voice 0).env.target ∧ (s.voice 0).env.phase = .attack ∧
      (∃ k, (s.voice 0).current = some k) ∧ ∃ p, (s.voice 0).player = some p ∧ (s.voice 0).env.rateCount = p.rates.attack) ∧
      (let s := enveloped { phase := .attack, level := 1, target := 0, rateCount := 1 } { attack := 255, release := 1 }
       (s.voice 0).env.target < (s.voice 0).env.level ∧
        ∃ p, (s.voice 0).player = some p ∧ (s.voice 0).env.rateCount = p.rates.release) ∧
      (let s := enveloped { phase := .release, level := 1, target := 9, rateCount := 1 } { attack := 255, release := 1 }
       (s.voice 0).env.phase = .release ∧ (s.voice 0).releaseMode ≠ some .fast ∧ 0 < (s.voice 0).env.level ∧
        ∃ p, (s.voice 0).player = some p ∧ (s.voice 0).env.rateCount = p.rates.release) ∧
      ((playing7.voice 0).env.phase = .hold ∧ ∃ k, (playing7.voice 0).current = some k) ∧
      (let s := enveloped { phase := .attack, level := 0, target := 15, rateCount := 254 } { attack := 255, release := 1 }
       (s.voice 0).env.rateCount ≠ 255) ∧
      (let s := enveloped { phase := .attack, level := 15, target := 0, rateCount := 0 } { attack := 255, release := 1 }
       (s.voice 0).env.target < (s.voice 0).env.level ∧ (s.voice 0).env.rateCount ≠ 1) ∧
      (let s := enveloped { phase := .release, level := 15, target := 0, rateCount := 0 } { attack := 255, release := 1 }
       (s.voice 0).env.phase = .release ∧ (s.voice 0).releaseMode ≠ some .fast ∧ (s.voice 0).env.rateCount ≠ 1) ∧
      (∃ p n, ((noteOver 0 1).voice 0).player = some p ∧ p.gateTicks = some 0 ∧ p.stepTicks = some n ∧ 0 < n ∧
        ((noteOver 0 1).voice 0).state = .active ∧ (noteOver 0 1).inReset = false) ∧
      ({ opened with mixer := { opened.mixer with duckCount := 8 } } : State).mixer.duckCount = 8 :=
  ⟨⟨rfl, by decide +kernel, rfl, ⟨_, rfl⟩, _, rfl, rfl⟩, ⟨by decide +kernel, _, rfl, rfl⟩,
    ⟨rfl, by decide +kernel, by decide +kernel, _, rfl, rfl⟩, ⟨rfl, _, rfl⟩,
    by decide +kernel, by decide +kernel, by decide +kernel, ⟨_, _, rfl, rfl, rfl, by decide, rfl, rfl⟩, rfl⟩

/-! ### The same for sound -/

/-- The shift at the period after 64 voice clocks, and the shift at 0 after 1 with 63 clocks run. -/
theorem witness_OscillatorsRun :
    (BitVec.allOnes 15 ≠ 0) ∧ (0 : VoiceId) ≠ 6 ∧
      (let s := atPhase .noise 1681 0 1
       s.inReset = false ∧ ∃ p o, (s.voice 0).player = some p ∧ (s.voice 0).osc = some o ∧ p.period ≠ 0 ∧
        o.clocks + 64 ≤ 64 ∧ (Oscillator.runClocks p.period 64 o).phaseCount = p.period ∧
        ∀ j < 64, 0 < j → (Oscillator.runClocks p.period j o).phaseCount ≠ p.period ∧
          (Oscillator.runClocks p.period j o).phaseCount ≠ 0) ∧
      let s := atPhase .noise 3489 63 1
      ∃ p o, (s.voice 0).player = some p ∧ (s.voice 0).osc = some o ∧ o.clocks + 1 ≤ 64 ∧
        (Oscillator.runClocks p.period 1 o).phaseCount = 0 :=
  ⟨by decide, by decide, ⟨rfl, _, _, rfl, rfl, by decide, by decide, by decide +kernel, by decide +kernel⟩, _, _, rfl, rfl,
    by decide, by decide +kernel⟩

/-- A voice that plays, a stream that plays, one that is starved, and none. -/
theorem witness_OutputSamplesMix :
    (let s := playing7.finishBlock
     playing7.inReset = false ∧ (s.voice 0).state ≠ .idle ∧
      (∃ p o, (s.voice 0).player = some p ∧ (s.voice 0).osc = some o ∧ p.period ≠ 0) ∧ s.playingSlot = none) ∧
      (let s := (streaming (stream1 .playing)).finishBlock
       s.playingSlot = some 0 ∧ ∃ x r d, s.stream 0 = some x ∧ x.state = .playing ∧ x.read = some r ∧ x.filled = 0 :: [] ∧
        s.streams.blocks[0] = some d) ∧
      let s := (streaming starvedStream).finishBlock
      s.playingSlot = some 0 ∧ ∃ x, s.stream 0 = some x ∧ x.state ≠ .playing :=
  ⟨⟨rfl, by decide +kernel, ⟨_, _, rfl, rfl, by decide⟩, by decide +kernel⟩,
    ⟨by decide +kernel, _, _, _, rfl, rfl, rfl, rfl, rfl⟩, by decide +kernel, _, rfl, nofun⟩

/-! ### The same for what every step keeps -/

/-- Tag 7 plays, and an advance of the tick counter waits. -/
def beforeStep : State :=
  { playing7 with pending := [.tickAdvance ⟨true, true, true, true⟩] }

theorem beforeStep_next : ∃ t, step beforeStep = .next t := ⟨_, rfl⟩

theorem witness_StepsKeepPages :
    ∃ t, (stored (storeWith 3 17)).store.Ok ∧
      step { stored (storeWith 3 17) with pending := [.phraseDrop 5 [31]] } = .next t :=
  ⟨_, store_ok _ (by decide +kernel), rfl⟩

theorem witness_StepsKeepBlocks : ∃ t, beforeStep.streams.Ok ∧ step beforeStep = .next t :=
  beforeStep_next.imp fun _ h => ⟨playing7_sound.streams, h⟩

theorem witness_StepsKeepReportOrder :
    ∃ t, (unacked 3 250).reports.Ok ∧ step { unacked 3 250 with pending := [.reportAck 5 [0]] } = .next t :=
  ⟨_, unacked_ok 3 (by decide) 250, rfl⟩

theorem witness_StepsKeepRanges : ∃ t, beforeStep.Sound ∧ step beforeStep = .next t :=
  beforeStep_next.imp fun _ h =>
    ⟨⟨playing7_sound.store, playing7_sound.map, playing7_sound.streams, playing7_sound.time, playing7_sound.mixer,
      playing7_sound.link, playing7_sound.reports⟩, h⟩

/-- An empty schedule and a full one. -/
theorem witness_StepsKeepCuesPlaced :
    (∃ t, beforeStep.Placed ∧ beforeStep.sched.entries.length ≤ 48 ∧ step beforeStep = .next t) ∧
      (crowded 48 opened).Placed ∧ (crowded 48 opened).sched.entries.length = 48 :=
  ⟨beforeStep_next.imp fun _ h =>
      ⟨⟨playing7_placed.voices, playing7_placed.tags, playing7_placed.refs⟩, by decide, h⟩,
    placed_of (by decide +kernel), by decide +kernel⟩

end Sys2Proof.Tests
end

section
/-! What the cues of the part lay claim to, kept as a ledger (R3, R4, R63): each cue claims its tag in the live-tag set and
one reference of its phrase, each call one reference of the called phrase. -/

namespace Sys2Proof.Machine

/-! ### Accounts and claims -/

/-- What a cue or a call can lay claim to: a tag of the live-tag set (R4), or a reference of a phrase (R63). -/
inductive Account where
  | tag (t : Tag)
  | phrase (id : PhraseId)

/-- How much a cue claims of an account. -/
def Cue.claims (c : Cue) : Account → Nat
  | .tag t => if c.tag = t then 1 else 0
  | .phrase id => c.names id

/-- How much a call of this phrase claims of an account. -/
def callClaims (p : PhraseId) : Account → Nat
  | .tag _ => 0
  | .phrase id => if p = id then 1 else 0

/-- How much a player claims by its call. -/
def playerClaims (p : Option Player) (a : Account) : Nat :=
  match p.bind (·.call) with
  | some call => callClaims call.phrase a
  | none => 0

/-- How much a current cue claims. -/
def currentClaims (k : Option Current) (a : Account) : Nat :=
  (k.map fun k => k.cue.claims a).getD 0

/-- How much an incoming cue claims. -/
def incomingClaims (c : Option Cue) (a : Account) : Nat :=
  (c.map fun c => c.claims a).getD 0

/-- How much a voice claims: by its current cue, its incoming cue and its call. -/
def Voice.claims (r : Voice) (a : Account) : Nat :=
  currentClaims r.current a + incomingClaims r.incoming a + playerClaims r.player a

/-- How much the schedule and the voices claim together. -/
def State.claims (s : State) (a : Account) : Nat :=
  (s.sched.entries.map fun e => e.cue.claims a).sum + (allVoices.map fun v => (s.voice v).claims a).sum

/-- What the part has booked: how often a tag stands in the live-tag set, and the reference count of a phrase. -/
def State.ledger (s : State) : Account → Nat
  | .tag t => s.sched.live.count t
  | .phrase id => (s.phrase id).refs

@[simp] theorem currentClaims_none (a : Account) : currentClaims none a = 0 := rfl
@[simp] theorem currentClaims_some (k : Current) (a : Account) : currentClaims (some k) a = k.cue.claims a := rfl
@[simp] theorem incomingClaims_none (a : Account) : incomingClaims none a = 0 := rfl
@[simp] theorem incomingClaims_some (c : Cue) (a : Account) : incomingClaims (some c) a = c.claims a := rfl
@[simp] theorem playerClaims_none (a : Account) : playerClaims none a = 0 := rfl
@[simp] theorem Voice.idle_claims (a : Account) : Voice.idle.claims a = 0 := rfl

/-- Players with the same call claim the same. -/
theorem playerClaims_congr {p q : Option Player} (h : p.bind (·.call) = q.bind (·.call)) (a : Account) :
    playerClaims p a = playerClaims q a := by
  simp only [playerClaims, h]

/-- Cues of one tag and one source claim the same. -/
theorem Cue.claims_congr {c d : Cue} (ht : c.tag = d.tag) (hs : c.source = d.source) (a : Account) :
    c.claims a = d.claims a := by
  cases a <;> simp [Cue.claims, Cue.names, ht, hs]

@[simp] theorem Cue.placed_claims (c : Cue) (a : Account) : c.placed.claims a = c.claims a :=
  Cue.claims_congr rfl rfl a

@[simp] theorem Current.withReason_claims (k : Current) (r : EndReason) (a : Account) :
    (k.withReason r).cue.claims a = k.cue.claims a :=
  Cue.claims_congr rfl rfl a

@[simp] theorem Cue.adjusted_claims (c : Cue) (x y : Option Nat) (a : Account) : (c.adjusted x y).claims a = c.claims a :=
  Cue.claims_congr rfl rfl a

@[simp] theorem Cue.claims_own_tag (c : Cue) : c.claims (.tag c.tag) = 1 := by simp [Cue.claims]

/-! ### Sums over the voices -/

theorem sum_allVoices (f : VoiceId → Nat) : (allVoices.map f).sum = ∑ v, f v := by
  simp [allVoices, Fin.sum_univ_succ]

/-- Two assignments to the voices that differ on one voice only have sums that differ as they do there. -/
theorem sum_allVoices_swap (f g : VoiceId → Nat) (v : VoiceId) (h : ∀ u, u ≠ v → f u = g u) :
    (allVoices.map f).sum + g v = (allVoices.map g).sum + f v := by
  simp only [sum_allVoices]
  have key : ∑ u ∈ Finset.univ.erase v, f u = ∑ u ∈ Finset.univ.erase v, g u :=
    Finset.sum_congr rfl fun u hu => h u (Finset.ne_of_mem_erase hu)
  have hf := Finset.sum_erase_add Finset.univ f (Finset.mem_univ v)
  have hg := Finset.sum_erase_add Finset.univ g (Finset.mem_univ v)
  omega

theorem le_sum_allVoices (f : VoiceId → Nat) (v : VoiceId) : f v ≤ (allVoices.map f).sum := by
  rw [sum_allVoices]
  exact Finset.single_le_sum (fun _ _ => Nat.zero_le _) (Finset.mem_univ v)

theorem add_le_sum_allVoices (f : VoiceId → Nat) {u v : VoiceId} (h : u ≠ v) : f u + f v ≤ (allVoices.map f).sum := by
  rw [sum_allVoices, ← Finset.sum_pair h]
  exact Finset.sum_le_sum_of_subset (Finset.subset_univ _)

theorem State.voice_claims_le (s : State) (v : VoiceId) (a : Account) : (s.voice v).claims a ≤ s.claims a :=
  (le_sum_allVoices (fun v => (s.voice v).claims a) v).trans (Nat.le_add_left _ _)

/-! ### What the updates do to the claims and the ledger -/

theorem State.claims_congr {s t : State} (he : t.sched.entries = s.sched.entries)
    (hv : t.alloc.voices = s.alloc.voices) (a : Account) : t.claims a = s.claims a := by
  simp only [State.claims, State.voice, he, hv]

theorem State.ledger_congr {s t : State} (hl : t.sched.live = s.sched.live) (hs : t.store.slots = s.store.slots)
    (a : Account) : t.ledger a = s.ledger a := by
  cases a <;> simp only [State.ledger, State.phrase, hl, hs]

/-- A voice record written in the place of another. -/
theorem State.putVoice_claims (s : State) (v : VoiceId) (r : Voice) (a : Account) :
    (s.putVoice v r).claims a + (s.voice v).claims a = s.claims a + r.claims a := by
  have k := sum_allVoices_swap (fun u => ((s.putVoice v r).voice u).claims a) (fun u => (s.voice u).claims a) v
    fun u h => by rw [State.putVoice_other s v u r h]
  rw [State.putVoice_same] at k
  simp only [State.claims, State.putVoice_sched]
  omega

@[simp] theorem State.putVoice_ledger (s : State) (v : VoiceId) (r : Voice) (a : Account) :
    (s.putVoice v r).ledger a = s.ledger a :=
  State.ledger_congr (by simp) (by simp) a

/-- Tags held in the schedule and on the voices, counted: the claims on a tag. -/
theorem State.count_heldTags (s : State) (t : Tag) : s.heldTags.count t = s.claims (.tag t) := by
  have entries : ∀ l : List Entry,
      (l.map fun e => e.cue.tag).count t = (l.map fun e => e.cue.claims (.tag t)).sum := by
    intro l
    induction l with
    | nil => rfl
    | cons e l ih =>
      simp only [List.map_cons, List.count_cons, List.sum_cons, ih, Cue.claims, beq_iff_eq]
      omega
  have voice : ∀ r : Voice, r.tags.count t = r.claims (.tag t) := by
    intro r
    have hp : playerClaims r.player (.tag t) = 0 := by unfold playerClaims; split <;> rfl
    simp only [Voice.tags, Voice.claims, List.count_append, hp, Nat.add_zero]
    congr 1
    · cases r.current <;> simp [Cue.claims, List.count_singleton]
    · cases r.incoming <;> simp [Cue.claims, List.count_singleton]
  simp only [State.heldTags, State.claims, List.count_append, List.count_flatMap, entries, Function.comp_def, voice]

/-- The claims on a phrase are the cues and calls that R63 counts. -/
theorem State.claims_phrase (s : State) (id : PhraseId) :
    s.claims (.phrase id) =
      (s.sched.entries.map fun e => e.cue.names id).sum + (allVoices.map fun v => (s.voice v).names id).sum := by
  have voice : ∀ r : Voice, r.claims (.phrase id) = r.names id := by
    intro r
    simp only [Voice.claims, Voice.names, currentClaims, incomingClaims, playerClaims, Cue.claims]
    cases r.player.bind (·.call) <;> rfl
  simp only [State.claims, Cue.claims, voice]

end Sys2Proof.Machine
end

section
/-! The books of the part: every cue is held once, on a voice of its class and in the state its voice gives it, and the
ledger agrees with the claims, but for claims in hand and claims given up while an operation is under way. -/

namespace Sys2Proof.Machine

/-! ### Voice records (R28, R29) -/

theorem Voice.Ok.eq_idle {v : VoiceId} {r : Voice} (h : r.Ok v) (hs : r.state = .idle) : r = Voice.idle := by
  have k := h.1
  rwa [hs] at k

theorem Voice.Ok.of_active {v : VoiceId} {r : Voice} (h : r.Ok v) (hs : r.state = .active) :
    r.current.isSome ∧ r.incoming = none ∧ r.releaseMode = none := by
  have k := h.1
  rwa [hs] at k

theorem Voice.Ok.of_ending {v : VoiceId} {r : Voice} (h : r.Ok v) (hs : r.state = .ending) :
    r.current.any (fun k => k.cue.endReason.isSome) ∧ r.incoming = none ∧ r.releaseMode.isSome := by
  have k := h.1
  rwa [hs] at k

theorem Voice.Ok.of_handoff {v : VoiceId} {r : Voice} (h : r.Ok v) (hs : r.state = .handoff) :
    ∃ k c, r.current = some k ∧ r.incoming = some c ∧ r.releaseMode = some .fast ∧ k.cue.endReason = some .stolen ∧
      k.cue.priority < c.priority := by
  have k := h.1
  rwa [hs] at k

theorem Voice.Ok.handoff_of_incoming {v : VoiceId} {r : Voice} {c : Cue} (h : r.Ok v) (hc : r.incoming = some c) :
    r.state = .handoff := by
  cases hs : r.state with
  | idle => rw [h.eq_idle hs] at hc; cases hc
  | active => rw [(h.of_active hs).2.1] at hc; cases hc
  | ending => rw [(h.of_ending hs).2.1] at hc; cases hc
  | handoff => rfl

theorem Voice.Ok.current_isSome {v : VoiceId} {r : Voice} (h : r.Ok v) (hs : r.state ≠ .idle) : r.current.isSome := by
  cases hs' : r.state with
  | idle => exact absurd hs' hs
  | active => exact (h.of_active hs').1
  | ending =>
    obtain ⟨k, hk, -⟩ := Option.any_eq_true _ _ |>.mp (h.of_ending hs').1
    simp [hk]
  | handoff =>
    obtain ⟨k, c, hk, -⟩ := h.of_handoff hs'
    simp [hk]

theorem Voice.Ok.not_idle {v : VoiceId} {r : Voice} (h : r.Ok v) (hc : r.current.isSome) : r.state ≠ .idle := by
  intro hs
  rw [h.eq_idle hs] at hc
  cases hc

theorem Voice.idle_ok (v : VoiceId) : Voice.idle.Ok v :=
  ⟨rfl, (fun _ h => by cases h), (fun _ h => by cases h)⟩

theorem Voice.starting_ok (v : VoiceId) (c : Cue) (now : Tick) (h : v ∈ c.source.voices) : (Voice.starting v c now).Ok v :=
  ⟨⟨rfl, rfl, rfl⟩, fun k hk => by cases hk; exact h, fun _ h => by cases h⟩

/-- What R28 and R29 say of a record does not speak of its envelope, player and oscillator, but that an IDLE voice has
none. -/
theorem Voice.Ok.congr {v : VoiceId} {r r' : Voice} (h : r.Ok v) (hc : r.current.isSome) (hs : r'.state = r.state)
    (hk : r'.current = r.current) (hm : r'.releaseMode = r.releaseMode) (hi : r'.incoming = r.incoming) : r'.Ok v := by
  have hn := h.not_idle hc
  obtain ⟨h1, h2, h3⟩ := h
  refine ⟨?_, by rwa [hk], by rwa [hi]⟩
  rw [hs, hk, hm, hi]
  revert h1
  cases e : r.state with
  | idle => exact absurd e hn
  | active => exact id
  | ending => exact id
  | handoff => exact id

theorem Voice.rateStep_of_no_current {r : Voice} (h : r.current = none) : r.rateStep = r := by
  simp [Voice.rateStep, Voice.rateDue, h]

/-- A rate count step moves the envelope only. -/
theorem Voice.rateStep_eq (r : Voice) : r.rateStep = { r with env := r.rateStep.env } := by
  unfold Voice.rateStep
  split <;> rfl

@[simp] theorem Voice.rateStep_state (r : Voice) : r.rateStep.state = r.state := by rw [r.rateStep_eq]
@[simp] theorem Voice.rateStep_current (r : Voice) : r.rateStep.current = r.current := by rw [r.rateStep_eq]
@[simp] theorem Voice.rateStep_incoming (r : Voice) : r.rateStep.incoming = r.incoming := by rw [r.rateStep_eq]
@[simp] theorem Voice.rateStep_releaseMode (r : Voice) : r.rateStep.releaseMode = r.releaseMode := by rw [r.rateStep_eq]
@[simp] theorem Voice.rateStep_player (r : Voice) : r.rateStep.player = r.player := by rw [r.rateStep_eq]
@[simp] theorem Voice.rateStep_claims (r : Voice) (a : Account) : r.rateStep.claims a = r.claims a := by
  simp [Voice.claims]

theorem Voice.Ok.rateStep {v : VoiceId} {r : Voice} (h : r.Ok v) : r.rateStep.Ok v := by
  by_cases hc : r.current.isSome
  · exact h.congr hc r.rateStep_state r.rateStep_current r.rateStep_releaseMode r.rateStep_incoming
  · rwa [Voice.rateStep_of_no_current (by simpa using hc)]

/-! ### References and tags in the ledger -/

theorem State.refDown_phrase (s : State) (id j : PhraseId) :
    (s.refDown id).phrase j = if id = j then { s.phrase id with refs := (s.phrase id).refs - 1 } else s.phrase j := by
  simp [State.refDown, State.phrase, PhraseStore.putSlot, Vector.getElem_set, Fin.ext_iff]

theorem State.refUp_phrase (s : State) (id j : PhraseId) :
    (s.refUp id).phrase j = if id = j then { s.phrase id with refs := (s.phrase id).refs + 1 } else s.phrase j := by
  simp [State.refUp, State.phrase, PhraseStore.putSlot, Vector.getElem_set, Fin.ext_iff]

theorem State.refDown_ledger (s : State) (id : PhraseId) (a : Account) :
    (s.refDown id).ledger a = s.ledger a - callClaims id a := by
  cases a with
  | tag y => rfl
  | phrase j =>
    simp only [State.ledger, State.refDown_phrase, callClaims]
    split
    · rename_i e; subst e; rfl
    · rfl

theorem State.refUp_ledger (s : State) (id : PhraseId) (a : Account) :
    (s.refUp id).ledger a = s.ledger a + callClaims id a := by
  cases a with
  | tag y => rfl
  | phrase j =>
    simp only [State.ledger, State.refUp_phrase, callClaims]
    split
    · rename_i e; subst e; rfl
    · rfl

/-- How much of an account is the tag itself. -/
def tagClaims (x : Tag) : Account → Nat
  | .tag y => if x = y then 1 else 0
  | .phrase _ => 0

/-- A tag that stands at most once in the live-tag set leaves it. -/
theorem State.dropTag_ledger (s : State) (x : Tag) (h : s.sched.live.count x ≤ 1) (a : Account) :
    (s.dropTag x).ledger a = s.ledger a - tagClaims x a := by
  cases a with
  | phrase id => rfl
  | tag y =>
    simp only [State.ledger, State.dropTag, tagClaims]
    by_cases e : x = y
    · subst e
      rw [if_pos rfl, List.count_eq_zero.mpr (by simp)]
      omega
    · rw [if_neg e, List.count_filter (by simpa using Ne.symm e)]
      rfl

/-- How much of an account a source claims: a reference of its phrase. -/
def sourceClaims (c : Source) (a : Account) : Nat :=
  match c with
  | .phrase id => callClaims id a
  | _ => 0

/-- A cue claims its tag and what its source claims. -/
theorem Cue.claims_eq (c : Cue) (a : Account) : c.claims a = tagClaims c.tag a + sourceClaims c.source a := by
  cases a with
  | tag y => simp only [Cue.claims, tagClaims, sourceClaims]; cases c.source <;> rfl
  | phrase j => simp only [Cue.claims, Cue.names, tagClaims, sourceClaims, Nat.zero_add]; cases c.source <;> rfl

/-! ### The books -/

/-- The books of the part while an operation is under way: `hand` is claimed by cues that are held in no place, and `lost`
has been given up by cues that are still in their places. The schedule holds at most `cap` entries. -/
structure State.Books (cap : Nat) (hand lost : Account → Nat) (s : State) : Prop where
  voices : s.VoicesOk
  single : ∀ t, s.sched.live.count t ≤ 1
  ready : ∀ id, (s.phrase id).refs ≠ 0 → (s.phrase id).state = .ready
  balanced : ∀ a, s.ledger a + lost a = s.claims a + hand a
  room : s.sched.entries.length ≤ cap

/-- The books with nothing in hand and nothing given up. -/
abbrev State.Booked (cap : Nat) (s : State) : Prop :=
  s.Books cap 0 0

/-- The books are what R3 to R5, R28, R29 and R63 say. -/
theorem State.booked_iff (cap : Nat) (s : State) : s.Booked cap ↔ s.Placed ∧ s.sched.entries.length ≤ cap := by
  constructor
  · intro h
    have bal : ∀ a, s.ledger a = s.claims a := h.balanced
    refine ⟨⟨h.voices, ⟨List.nodup_iff_count_le_one.mpr h.single, List.perm_iff_count.mpr fun t => ?_⟩, fun id => ?_⟩, h.room⟩
    · rw [s.count_heldTags, ← bal]; rfl
    · exact ⟨(bal (.phrase id)).trans (s.claims_phrase id), h.ready id⟩
  · rintro ⟨⟨hv, ⟨hn, hp⟩, hr⟩, hl⟩
    refine ⟨hv, List.nodup_iff_count_le_one.mp hn, fun id => (hr id).2, fun a => ?_, hl⟩
    cases a with
    | tag t => exact (List.perm_iff_count.mp hp t).symm.trans (s.count_heldTags t)
    | phrase id => exact (hr id).1.trans (s.claims_phrase id).symm

theorem State.Placed.booked {s : State} (h : s.Placed) : s.Booked s.sched.entries.length :=
  (s.booked_iff _).mpr ⟨h, le_rfl⟩

theorem State.Booked.placed {cap : Nat} {s : State} (h : s.Booked cap) : s.Placed :=
  ((s.booked_iff cap).mp h).1

namespace State.Books

variable {cap : Nat} {hand lost : Account → Nat} {s t : State}

/-- Only the difference of what is in hand and what is given up counts. -/
theorem rebalance {hand' lost' : Account → Nat} (h : s.Books cap hand lost)
    (e : ∀ a, hand a + lost' a = hand' a + lost a) : s.Books cap hand' lost' :=
  ⟨h.voices, h.single, h.ready, fun a => by have := h.balanced a; have := e a; omega, h.room⟩

/-- The books speak of the schedule, the voices and the phrase slots alone. -/
theorem congr (h : s.Books cap hand lost) (hs : t.sched = s.sched) (hv : t.alloc.voices = s.alloc.voices)
    (hp : t.store = s.store) : t.Books cap hand lost where
  voices v := by have := h.voices v; simpa only [State.voice, hv] using this
  single := by simpa only [hs] using h.single
  ready := by simpa only [State.phrase, hp] using h.ready
  balanced a := by
    rw [State.ledger_congr (s := s) (by rw [hs]) (by rw [hp]), State.claims_congr (s := s) (by rw [hs]) hv]
    exact h.balanced a
  room := by simpa only [hs] using h.room

theorem offer (h : s.Books cap hand lost) (k : ReportKind) : (s.offer k).Books cap hand lost :=
  h.congr (by simp) (by simp) (by simp)

theorem askPass (h : s.Books cap hand lost) : s.askPass.Books cap hand lost :=
  h.congr (by simp) (by simp) (by simp)

/-- A voice record is written: what it claims is given a place, and what the old one claimed is in hand. -/
theorem putVoice (h : s.Books cap hand lost) (v : VoiceId) (r : Voice) (hr : r.Ok v) :
    (s.putVoice v r).Books cap (hand + (s.voice v).claims) (lost + r.claims) where
  voices u := by
    by_cases e : u = v
    · rw [e, State.putVoice_same]; exact hr
    · rw [State.putVoice_other s v u r e]; exact h.voices u
  single := by simpa using h.single
  ready := by simpa using h.ready
  balanced a := by
    have := h.balanced a
    have := s.putVoice_claims v r a
    simp only [State.putVoice_ledger, Pi.add_apply]
    omega
  room := by simpa using h.room

/-- A voice record that claims what the old one did. -/
theorem putVoice_same_claims (h : s.Books cap hand lost) (v : VoiceId) (r : Voice) (hr : r.Ok v)
    (hc : ∀ a, r.claims a = (s.voice v).claims a) : (s.putVoice v r).Books cap hand lost :=
  (h.putVoice v r hr).rebalance fun a => by have := hc a; simp only [Pi.add_apply]; omega

/-- A tag leaves the live-tag set: the claim on it is given up. -/
theorem dropTag (h : s.Books cap hand lost) (x : Tag) (hx : 1 ≤ s.ledger (.tag x)) :
    (s.dropTag x).Books cap hand (lost + tagClaims x) where
  voices := h.voices
  single y := (List.Sublist.count_le y List.filter_sublist).trans (h.single y)
  ready := h.ready
  balanced a := by
    have hb := h.balanced a
    have hl := s.dropTag_ledger x (h.single x) a
    have hc : (s.dropTag x).claims a = s.claims a := rfl
    have le : tagClaims x a ≤ s.ledger a := by
      cases a with
      | phrase id => exact Nat.zero_le _
      | tag y => simp only [tagClaims]; split; rename_i e; exact e ▸ hx; exact Nat.zero_le _
    simp only [hc, Pi.add_apply]
    omega
  room := h.room

/-- A reference is given up. -/
theorem refDown (h : s.Books cap hand lost) (id : PhraseId) (hx : 1 ≤ s.ledger (.phrase id)) :
    (s.refDown id).Books cap hand (lost + callClaims id) where
  voices := h.voices
  single := h.single
  ready j := by
    have k := h.ready j
    rw [State.refDown_phrase]
    split
    · rename_i e; subst e; exact fun hn => k (fun hz => hn (by simp only [hz]))
    · exact k
  balanced a := by
    have hb := h.balanced a
    have hl := s.refDown_ledger id a
    have hc : (s.refDown id).claims a = s.claims a := rfl
    have le : callClaims id a ≤ s.ledger a := by
      cases a with
      | tag y => exact Nat.zero_le _
      | phrase j => simp only [callClaims]; split; rename_i e; exact e ▸ hx; exact Nat.zero_le _
    simp only [hc, Pi.add_apply]
    omega
  room := h.room

/-- A reference is taken of a READY phrase. -/
theorem refUp (h : s.Books cap hand lost) (id : PhraseId) (hr : (s.phrase id).state = .ready) :
    (s.refUp id).Books cap (hand + callClaims id) lost where
  voices := h.voices
  single := h.single
  ready j := by
    have k := h.ready j
    rw [State.refUp_phrase]
    split
    · exact fun _ => hr
    · exact k
  balanced a := by
    have hb := h.balanced a
    have hl := s.refUp_ledger id a
    have hc : (s.refUp id).claims a = s.claims a := rfl
    simp only [hc, Pi.add_apply]
    omega
  room := h.room

end State.Books

end Sys2Proof.Machine
end

section
/-! What each operation on cues does to the books: it keeps them, or leaves a claim in hand or given up that the operation
around it settles. -/

namespace Sys2Proof.Machine

/-! ### What giving up a cue leaves alone -/

@[simp] theorem State.releaseSource_alloc (s : State) (c : Cue) : (s.releaseSource c).alloc = s.alloc := by
  unfold State.releaseSource
  split
  · rfl
  · rfl
  · rfl
  · split
    · simp
    · rfl

@[simp] theorem State.releaseSource_sched (s : State) (c : Cue) : (s.releaseSource c).sched = s.sched := by
  unfold State.releaseSource
  split
  · rfl
  · rfl
  · rfl
  · split
    · simp
    · rfl

@[simp] theorem State.releaseCall_alloc (s : State) (p : Option Player) : (s.releaseCall p).alloc = s.alloc := by
  unfold State.releaseCall
  split <;> rfl

@[simp] theorem State.releaseCall_sched (s : State) (p : Option Player) : (s.releaseCall p).sched = s.sched := by
  unfold State.releaseCall
  split <;> rfl

@[simp] theorem State.retire_alloc (s : State) (c : Cue) (r : EndReason) (v : Option VoiceId) :
    (s.retire c r v).alloc = s.alloc := by
  simp [State.retire]

@[simp] theorem State.retire_entries (s : State) (c : Cue) (r : EndReason) (v : Option VoiceId) :
    (s.retire c r v).sched.entries = s.sched.entries := by
  simp [State.retire]

@[simp] theorem State.endCurrent_alloc (s : State) (v : VoiceId) : (s.endCurrent v).alloc = s.alloc := by
  unfold State.endCurrent
  split
  · simp
  · rfl

@[simp] theorem State.endCurrent_entries (s : State) (v : VoiceId) :
    (s.endCurrent v).sched.entries = s.sched.entries := by
  unfold State.endCurrent
  split
  · simp
  · rfl

@[simp] theorem State.freezeStream_store (s : State) (v : VoiceId) (tag : Tag) :
    (s.freezeStream v tag).store = s.store := by
  unfold State.freezeStream
  split
  · split <;> rfl
  · rfl

namespace State.Books

variable {cap : Nat} {hand lost : Account → Nat} {s t : State}

theorem voice_ok (h : s.Books cap hand lost) (v : VoiceId) : (s.voice v).Ok v := h.voices v

theorem closeStream (h : s.Books cap hand lost) (i : StreamSlotId) : (s.closeStream i).Books cap hand lost :=
  h.congr (by simp) (by simp) (by simp)

theorem freezeStream (h : s.Books cap hand lost) (v : VoiceId) (tag : Tag) : (s.freezeStream v tag).Books cap hand lost :=
  h.congr (by simp) (by simp) (by simp)

theorem putStream (h : s.Books cap hand lost) (i : StreamSlotId) (x : Option OpenStream) :
    (s.putStream i x).Books cap hand lost :=
  h.congr (by simp) (by simp) (by simp)

/-! ### Giving up what a cue claims (R15, R42) -/

/-- A cue's source is released. -/
theorem releaseSource (h : s.Books cap hand lost) (c : Cue) (hc : ∀ a, sourceClaims c.source a ≤ s.ledger a) :
    (s.releaseSource c).Books cap hand (lost + sourceClaims c.source) := by
  have none_claimed : (∀ id, c.source ≠ .phrase id) → ∀ {t : State}, t.Books cap hand lost →
      t.Books cap hand (lost + sourceClaims c.source) := by
    intro hn t ht
    refine ht.rebalance fun a => ?_
    have : sourceClaims c.source a = 0 := by
      unfold sourceClaims
      split
      · rename_i id e; exact absurd e (hn id)
      · rfl
    simp [this]
  unfold State.releaseSource
  split
  · rename_i id e
    rw [e] at hc ⊢
    exact h.refDown id (by simpa [sourceClaims, callClaims] using hc (.phrase id))
  · rename_i e
    exact none_claimed (by simp [e]) h
  · rename_i e
    exact none_claimed (by simp [e]) h
  · rename_i e
    split
    · exact none_claimed (by simp [e]) (h.closeStream _)
    · exact none_claimed (by simp [e]) h

/-- A player's call is released. -/
theorem releaseCall (h : s.Books cap hand lost) (p : Option Player) (hc : ∀ a, playerClaims p a ≤ s.ledger a) :
    (s.releaseCall p).Books cap hand (lost + playerClaims p) := by
  unfold State.releaseCall
  cases e : p.bind (·.call) with
  | none =>
    refine h.rebalance fun a => ?_
    have : playerClaims p a = 0 := by simp only [playerClaims, e]
    simp [this]
  | some call =>
    have hp : playerClaims p = callClaims call.phrase := by
      funext a
      simp only [playerClaims, e]
    rw [hp] at hc ⊢
    refine h.refDown _ ?_
    simpa [callClaims] using hc (.phrase call.phrase)

/-- A cue that the ledger holds is given up. -/
theorem retire (h : s.Books cap hand lost) (c : Cue) (r : EndReason) (v : Option VoiceId)
    (hc : ∀ a, c.claims a ≤ s.ledger a) : (s.retire c r v).Books cap hand (lost + c.claims) := by
  have ht : 1 ≤ s.ledger (.tag c.tag) := by simpa using hc (.tag c.tag)
  have k := (h.offer (.cueEnded c.tag r v)).dropTag c.tag ht
  refine (k.releaseSource c fun a => ?_).rebalance fun a => ?_
  · have h1 := k.balanced a
    have h2 := h.balanced a
    have e : ((s.offer (.cueEnded c.tag r v)).dropTag c.tag).claims a = s.claims a := rfl
    have := hc a
    rw [Cue.claims_eq] at this
    simp only [Pi.add_apply] at h1
    omega
  · have := c.claims_eq a
    simp only [Pi.add_apply]
    omega

/-- The current cue of a voice ends, and its place is still to be emptied: what it claimed is given up. -/
theorem endCurrent (h : s.Booked cap) (v : VoiceId) :
    (s.endCurrent v).Books cap 0 fun a => currentClaims (s.voice v).current a + playerClaims (s.voice v).player a := by
  unfold State.endCurrent
  cases e : (s.voice v).current with
  | none =>
    have hi : s.voice v = Voice.idle :=
      (h.voice_ok v).eq_idle (by by_contra hn; have := (h.voice_ok v).current_isSome hn; rw [e] at this; cases this)
    refine h.rebalance fun a => ?_
    simp only [hi]
    rfl
  | some k =>
    have held : ∀ a, k.cue.claims a + playerClaims (s.voice v).player a ≤ s.ledger a := by
      intro a
      have h1 := h.balanced a
      have h2 := s.voice_claims_le v a
      simp only [Voice.claims, e, currentClaims_some, Pi.zero_apply] at *
      omega
    have ht : 1 ≤ s.ledger (.tag k.cue.tag) := by
      have := held (.tag k.cue.tag)
      simp only [Cue.claims_own_tag] at this
      omega
    dsimp only
    generalize ReportKind.cueEnded k.cue.tag (k.cue.endReason.getD .finished) (some v) = report
    have k1 := (h.offer report).dropTag k.cue.tag ht
    have b1 := k1.balanced
    have c1 : ∀ a, ((s.offer report).dropTag k.cue.tag).claims a = s.claims a := fun _ => rfl
    have k2 := k1.releaseCall (s.voice v).player fun a => by
      have := b1 a; have := c1 a; have := h.balanced a; have := held a; have := k.cue.claims_eq a
      simp only [Pi.add_apply, Pi.zero_apply] at *
      omega
    have b2 := k2.balanced
    have c2 : ∀ a, (((s.offer report).dropTag k.cue.tag).releaseCall (s.voice v).player).claims a = s.claims a :=
      fun a => State.claims_congr (by simp) (by simp) a
    refine (k2.releaseSource k.cue fun a => ?_).rebalance fun a => ?_
    · have := b2 a; have := c2 a; have := h.balanced a; have := held a; have := k.cue.claims_eq a
      simp only [Pi.add_apply, Pi.zero_apply] at *
      omega
    · have := k.cue.claims_eq a
      simp only [Pi.add_apply, Pi.zero_apply, currentClaims_some]
      omega

/-- The end of a cue on a voice that holds no incoming cue. -/
theorem endToIdle (h : s.Booked cap) (v : VoiceId) (hi : (s.voice v).incoming = none) : (s.endToIdle v).Booked cap := by
  refine State.Books.askPass (((State.Books.endCurrent h v).putVoice v Voice.idle (Voice.idle_ok v)).rebalance fun a => ?_)
  have e : (s.endCurrent v).voice v = s.voice v := by simp [State.voice]
  simp only [e, Pi.add_apply, Pi.zero_apply, Voice.claims, hi, incomingClaims_none]
  simp [Voice.idle]

/-- The schedule entry with this tag leaves the schedule: its cue is in hand. -/
theorem dropEntry (h : s.Books cap hand lost) {e : Entry} (he : e ∈ s.sched.entries)
    (hs : s.claims (.tag e.cue.tag) ≤ 1) : (s.dropEntry e.cue.tag).Books cap (hand + e.cue.claims) lost where
  voices := h.voices
  single := h.single
  ready := h.ready
  balanced a := by
    have hb := h.balanced a
    have hl : (s.dropEntry e.cue.tag).ledger a = s.ledger a := State.ledger_congr rfl rfl a
    have filtered : ∀ l : List Entry, e ∈ l → (l.map fun x => x.cue.claims (.tag e.cue.tag)).sum ≤ 1 →
        ((l.filter fun x => x.cue.tag != e.cue.tag).map fun x => x.cue.claims a).sum + e.cue.claims a =
          (l.map fun x => x.cue.claims a).sum := by
      intro l
      induction l with
      | nil => intro hm; cases hm
      | cons x l ih =>
        intro hm hc
        simp only [List.map_cons, List.sum_cons] at hc ⊢
        by_cases hx : x.cue.tag = e.cue.tag
        · have hx1 : x.cue.claims (.tag e.cue.tag) = 1 := by simp [Cue.claims, hx]
          have hz : ∀ y ∈ l, y.cue.tag ≠ e.cue.tag := by
            intro y hy hy'
            have := List.single_le_sum (fun _ _ => Nat.zero_le _) _ (List.mem_map_of_mem hy)
              (l := l.map fun x => x.cue.claims (.tag e.cue.tag))
            simp only [Cue.claims, hy', if_true] at this
            simp only [Cue.claims] at hc hx1
            omega
          have hxe : x = e := by
            rcases List.mem_cons.mp hm with hm | hm
            · exact hm.symm
            · exact absurd rfl (hz e hm)
          have hf : l.filter (fun x => x.cue.tag != e.cue.tag) = l :=
            List.filter_eq_self.mpr fun y hy => by simpa using hz y hy
          rw [List.filter_cons_of_neg (by simp [hx]), hf, hxe]
          omega
        · have hm' : e ∈ l := by
            rcases List.mem_cons.mp hm with hm | hm
            · exact absurd (congrArg (fun y => y.cue.tag) hm).symm hx
            · exact hm
          rw [List.filter_cons_of_pos (by simpa using hx)]
          have := ih hm' (by omega)
          simp only [List.map_cons, List.sum_cons]
          omega
    have := filtered s.sched.entries he (by simp only [State.claims] at hs; omega)
    simp only [hl, Pi.add_apply]
    simp only [State.claims, State.dropEntry, State.voice] at *
    omega
  room := (List.length_filter_le _ _).trans h.room

theorem claims_tag_le (h : s.Booked cap) (x : Tag) : s.claims (.tag x) ≤ 1 := by
  have h1 := h.balanced (.tag x)
  have h2 := h.single x
  simp only [State.ledger, Pi.zero_apply] at h1
  omega

/-- A schedule entry is removed without sounding (R15). -/
theorem removeEntry (h : s.Booked cap) (tag : Tag) (r : EndReason) : (s.removeEntry tag r).Booked cap := by
  unfold State.removeEntry
  cases he : s.sched.entries.find? fun e => e.cue.tag == tag with
  | none => exact h
  | some e =>
    have hm := List.mem_of_find?_eq_some he
    have ht : e.cue.tag = tag := by simpa using List.find?_some he
    subst ht
    have k := State.Books.dropEntry h hm (claims_tag_le h _)
    refine (k.retire e.cue r none fun a => ?_).rebalance fun a => by simp [add_comm]
    have := k.balanced a
    simp only [Pi.add_apply, Pi.zero_apply] at this
    omega

/-- The incoming cue of a HANDOFF voice is removed without sounding (R15, R39). -/
theorem removeIncoming (h : s.Booked cap) (v : VoiceId) (r : EndReason) : (s.removeIncoming v r).Booked cap := by
  unfold State.removeIncoming
  cases hc : (s.voice v).incoming with
  | none => exact h
  | some c =>
    have hs := (h.voice_ok v).handoff_of_incoming hc
    obtain ⟨k, c', hk, -, hm, hr, -⟩ := (h.voice_ok v).of_handoff hs
    have hr' : Voice.Ok v { s.voice v with state := .ending, incoming := none } :=
      ⟨⟨by simp only [hk, Option.any_some, hr, Option.isSome_some], rfl, by simp only [hm, Option.isSome_some]⟩,
        (h.voice_ok v).2.1, fun _ h => by cases h⟩
    have b := State.Books.putVoice h v _ hr'
    have hd : ∀ a, (s.voice v).claims a =
        Voice.claims { s.voice v with state := .ending, incoming := none } a + c.claims a := by
      intro a
      simp only [Voice.claims, hc, incomingClaims_some, incomingClaims_none]
      omega
    refine (b.retire c r none fun a => ?_).rebalance fun a => ?_
    · have h1 := h.balanced a
      have h2 := s.voice_claims_le v a
      have h3 := hd a
      simp only [State.putVoice_ledger, Pi.zero_apply] at *
      omega
    · have := hd a
      simp only [Pi.add_apply, Pi.zero_apply] at *
      omega

/-- Entry to ENDING in normal release (R41). -/
theorem enterEnding (h : s.Booked cap) (v : VoiceId) (r : EndReason) : (s.enterEnding v r).Booked cap := by
  unfold State.enterEnding
  dsimp only
  split
  · rename_i k hs hk
    rw [Voice.rateStep_state] at hs
    rw [Voice.rateStep_current] at hk
    have hi := ((h.voice_ok v).of_active hs).2.1
    generalize hrec : ({ (s.voice v).rateStep with
      state := .ending
      releaseMode := some .normal
      current := some (k.withReason r)
      env := (s.voice v).rateStep.env.finalRelease (s.finalRate k.cue)
      player := (s.voice v).rateStep.player.map fun p =>
        { p with rates := { attack := s.finalRate k.cue, release := s.finalRate k.cue } } } : Voice) = rec
    have ok : rec.Ok v := by
      subst hrec
      exact ⟨⟨rfl, by simpa using hi, rfl⟩,
        fun k' hk' => by cases hk'; exact (h.voice_ok v).2.1 k hk,
        fun c hc => by cases ((s.voice v).rateStep_incoming.trans hi).symm.trans hc⟩
    have same : ∀ a, rec.claims a = (s.voice v).claims a := by
      intro a
      subst hrec
      simp only [Voice.claims, currentClaims_some, Current.withReason_claims, Voice.rateStep_incoming,
        Voice.rateStep_player, hk]
      congr 1
      refine playerClaims_congr ?_ a
      cases (s.voice v).player <;> rfl
    have b := (State.Books.putVoice_same_claims h v rec ok same).freezeStream v k.cue.tag
    split
    · refine State.Books.endToIdle b v ?_
      have : ((s.putVoice v rec).freezeStream v k.cue.tag).voice v = rec := by
        simp [State.voice]
      rw [this, ← hrec]
      simpa using hi
    · exact b
  · exact h

theorem chokeVoice (h : s.Booked cap) (g : Nat) (v : VoiceId) : (s.chokeVoice g v).Booked cap := by
  unfold State.chokeVoice
  split
  · exact enterEnding h v _
  · exact h

theorem choke (h : s.Booked cap) (v : VoiceId) (c : Cue) : (s.choke v c).Booked cap := by
  unfold State.choke
  split
  · exact Closed.foldl (P := State.Booked cap) _ (fun s v hs => chokeVoice hs c.group v) _ _ h
  · exact h

end State.Books

end Sys2Proof.Machine
end

section
/-! Starting cues, playing their steps, and the passes that place them keep the books (chapters 2 and 4). -/

namespace Sys2Proof.Machine

/-! ### Calls of a player -/

/-- A player at its next step is in the same call. -/
theorem Player.nextStep_claims (p : Player) (a : Account) : playerClaims (some p.nextStep) a = playerClaims (some p) a := by
  unfold Player.nextStep
  cases h : p.call <;> simp [playerClaims, h]

/-- A player that holds the call of the one before it claims the same, at its next step too. -/
theorem playerClaims_same_call {r : Option Player} {p q : Player} (hr : r = some p) (hq : q.call = p.call) (a : Account) :
    playerClaims (some q) a = playerClaims r a :=
  playerClaims_congr (by rw [hr]; exact hq) a

theorem playerClaims_nextStep {r : Option Player} {p q : Player} (hr : r = some p) (hq : q.call = p.call) (a : Account) :
    playerClaims (some q.nextStep) a = playerClaims r a := by
  rw [Player.nextStep_claims, playerClaims_same_call hr hq]

theorem playerClaims_of_call_none {p : Player} (h : p.call = none) (a : Account) : playerClaims (some p) a = 0 := by
  simp [playerClaims, h]

theorem playerClaims_of_call {p : Player} {call : CallPosition} (h : p.call = some call) (a : Account) :
    playerClaims (some p) a = callClaims call.phrase a := by
  simp [playerClaims, h]

theorem State.player_claims_le (s : State) (v : VoiceId) (a : Account) : playerClaims (s.voice v).player a ≤ s.claims a :=
  (Nat.le_add_left _ _).trans (s.voice_claims_le v a)

/-! ### Steal candidates (R34) -/

theorem foldl_betterCandidate_mem (l : List (VoiceId × Current)) (best : Option (VoiceId × Current))
    (x : VoiceId × Current) (h : l.foldl betterCandidate best = some x) : best = some x ∨ x ∈ l := by
  induction l generalizing best with
  | nil => exact .inl h
  | cons y l ih =>
    rcases ih _ h with hb | hm
    · unfold betterCandidate at hb
      split at hb
      · split at hb
        · exact .inr (by cases hb; exact List.mem_cons_self)
        · exact .inl hb
      · exact .inr (by cases hb; exact List.mem_cons_self)
    · exact .inr (List.mem_cons_of_mem _ hm)

/-- A candidate is a voice of the cue's class whose PLAYING cue has a lower priority. -/
theorem State.candidate_some {s : State} {c : Cue} {v : VoiceId} (h : s.candidate c = some v) :
    v ∈ c.source.voices ∧ ∃ k, (s.voice v).state = .active ∧ (s.voice v).current = some k ∧
      k.cue.priority < c.priority := by
  obtain ⟨x, hx, rfl⟩ := Option.map_eq_some_iff.mp h
  rcases foldl_betterCandidate_mem _ _ _ hx with hb | hm
  · cases hb
  · obtain ⟨u, hu, hs⟩ := List.mem_filterMap.mp hm
    unfold State.stealable at hs
    split at hs
    · rename_i k ha hk
      split at hs
      · rename_i hp
        cases hs
        exact ⟨hu, k, ha, hk, hp⟩
      · cases hs
    · cases hs

theorem State.idleVoice_some {s : State} {c : Cue} {v : VoiceId} (h : s.idleVoice c = some v) :
    v ∈ c.source.voices ∧ (s.voice v).state = .idle :=
  ⟨List.mem_of_find?_eq_some h, by simpa only [beq_iff_eq] using List.find?_some h⟩

theorem Voice.endingAtOnce_claims (r : Voice) (reason : EndReason) (a : Account) :
    (r.endingAtOnce reason).claims a = r.claims a := by
  simp only [Voice.endingAtOnce, Voice.claims]
  split
  · cases r.current <;> simp
  · rfl

/-- A record that is to end at once agrees with its state as before (R43). -/
theorem Voice.Ok.endingAtOnce {v : VoiceId} {r : Voice} (h : r.Ok v) (reason : EndReason) (hc : r.current.isSome) :
    (r.endingAtOnce reason).Ok v := by
  obtain ⟨k, hk⟩ := Option.isSome_iff_exists.mp hc
  unfold Voice.endingAtOnce
  split
  · rename_i hs
    refine ⟨?_, fun k' hk' => ?_, h.2.2⟩
    · rcases hs with hs | ⟨hs, -⟩
      · have k1 := h.of_active hs
        simpa only [hs, hk, Option.map_some, Option.isSome_some, true_and] using k1.2
      · have k1 := h.of_ending hs
        simpa only [hs, hk, Option.map_some, Option.any_some, Current.withReason, Option.isSome_some, true_and] using k1.2
    · rw [hk] at hk'
      cases hk'
      exact h.2.1 k hk
  · exact h.congr hc rfl rfl rfl rfl

namespace State.Books

variable {cap : Nat} {hand lost : Account → Nat} {s t : State}

theorem credit (h : s.Books cap hand lost) (n : Nat) : (State.credit n s).Books cap hand lost :=
  h.congr (by simp) (by simp) (by simp)

/-! ### The step player (R73 to R86) -/

/-- A player written on a voice that holds a current cue. -/
theorem putPlayer (h : s.Books cap hand lost) (v : VoiceId) (p : Player) (env : Envelope)
    (hc : (s.voice v).current.isSome) :
    (s.putPlayer v p env).Books cap (hand + playerClaims (s.voice v).player) (lost + playerClaims (some p)) :=
  (h.putVoice v { s.voice v with player := some p, env := env }
    ((h.voice_ok v).congr hc rfl rfl rfl rfl)).rebalance fun a => by
    simp only [Pi.add_apply, Voice.claims]
    omega

/-- A player in the same call. -/
theorem putPlayer_same (h : s.Books cap hand lost) (v : VoiceId) (p : Player) (env : Envelope)
    (hc : (s.voice v).current.isSome) (hp : ∀ a, playerClaims (some p) a = playerClaims (s.voice v).player a) :
    (s.putPlayer v p env).Books cap hand lost :=
  (h.putPlayer v p env hc).rebalance fun a => by
    have := hp a
    simp only [Pi.add_apply]
    omega

theorem startNote (h : s.Books cap hand lost) (v : VoiceId) (p : Player) (c : Cue) (hd : Header) (n : Note)
    (d vol g : Nat) (hc : (s.voice v).current.isSome)
    (hp : ∀ a, playerClaims (some p) a = playerClaims (s.voice v).player a) :
    (s.startNote v p c hd n d vol g).Books cap hand lost := by
  unfold State.startNote
  dsimp only
  split
  · exact h.putPlayer_same v _ _ hc hp
  · exact h.putPlayer_same v _ _ hc hp

/-- A CALL step: a call is entered only with a reference taken of a READY phrase (R82 to R84). -/
theorem takeCall (h : s.Booked cap) (v : VoiceId) (p : Player) (c : Cue) (target : PhraseId) (env : Envelope)
    (hc : (s.voice v).current.isSome) (hp : (s.voice v).player = some p) : (s.takeCall v p c target env).Booked cap := by
  unfold State.takeCall
  split
  · rename_i top hcall htop
    split
    · rename_i hr
      refine ((State.Books.refUp h target (by simpa [State.phraseReady] using hr)).putPlayer v _ env hc).rebalance
        fun a => ?_
      have e : (s.refUp target).voice v = s.voice v := rfl
      rw [e, hp]
      simp only [Pi.add_apply, playerClaims_of_call_none hcall]
      simp [playerClaims]
    · exact (State.Books.offer h _).putPlayer_same v _ env hc (playerClaims_nextStep hp rfl)
  · split
    · exact State.Books.putPlayer_same h v _ env hc (playerClaims_nextStep hp rfl)
    · exact (State.Books.offer h _).putPlayer_same v _ env hc (playerClaims_nextStep hp rfl)
  · exact State.Books.putPlayer_same h v _ env hc (playerClaims_nextStep hp rfl)

theorem carryOut (h : s.Booked cap) (v : VoiceId) (p : Player) (c : Cue) (st : Step)
    (hc : (s.voice v).current.isSome) (hp : (s.voice v).player = some p) : (s.carryOut v p c st).1.Booked cap := by
  unfold State.carryOut
  cases st with
  | note n d vol g => exact State.Books.startNote h v p c _ n d vol g hc (playerClaims_same_call hp rfl)
  | rest d => exact State.Books.putPlayer_same h v _ _ hc (playerClaims_same_call hp rfl)
  | call target => exact takeCall h v p c target _ hc hp
  | mark value => exact (State.Books.offer h _).putPlayer_same v _ _ hc (playerClaims_nextStep hp rfl)
  | shape sh => exact State.Books.putPlayer_same h v _ _ hc (playerClaims_nextStep hp rfl)

/-- A return from a CALL gives the reference up (R82). -/
theorem callReturn (h : s.Booked cap) (v : VoiceId) (p : Player) (call : CallPosition) (env : Envelope)
    (hc : (s.voice v).current.isSome) (hp : (s.voice v).player = some p) (hcall : p.call = some call) :
    (s.callReturn v p call env).Booked cap := by
  have held : 1 ≤ s.ledger (.phrase call.phrase) := by
    have h1 := h.balanced (.phrase call.phrase)
    have h2 := s.player_claims_le v (.phrase call.phrase)
    rw [hp, playerClaims_of_call hcall] at h2
    simp only [callClaims, if_true, Pi.zero_apply] at *
    omega
  refine ((State.Books.refDown h call.phrase held).putPlayer v _ env hc).rebalance fun a => ?_
  have e : (s.refDown call.phrase).voice v = s.voice v := rfl
  rw [e, hp]
  simp only [Pi.add_apply, playerClaims_of_call hcall, Player.nextStep_claims]
  simp [playerClaims]

theorem endPass (h : s.Booked cap) (v : VoiceId) (p : Player) (top : TopPosition) (hc : (s.voice v).current.isSome)
    (hp : (s.voice v).player = some p) : (s.endPass v p top).1.Booked cap := by
  have newPass : ∀ q : Player, q.call = p.call → (s.newPass v q top (s.voice v).env).Booked cap := by
    intro q hq
    unfold State.newPass
    exact State.Books.putPlayer_same h v _ _ hc (playerClaims_same_call hp hq)
  unfold State.endPass
  dsimp only
  split
  · exact newPass p rfl
  · refine State.Books.enterEnding (State.Books.putPlayer_same h v p.lastStep _ hc ?_) v _
    exact playerClaims_same_call hp rfl
  · exact newPass _ rfl

theorem runOne (h : s.Booked cap) (v : VoiceId) : (s.runOne v).1.Booked cap := by
  unfold State.runOne
  split
  · rename_i k p hs hk hp
    have hc : (s.voice v).current.isSome := by rw [hk]; rfl
    split
    · rename_i call hcall
      dsimp only
      split
      · exact carryOut h v p _ _ hc hp
      · exact callReturn h v p call _ hc hp hcall
    · dsimp only
      split
      · exact carryOut h v p _ _ hc hp
      · exact endPass h v p _ hc hp
    · exact State.Books.enterEnding h v _
  · exact h

theorem run (h : s.Booked cap) (n : Nat) (v : VoiceId) : (State.run n v s).Booked cap := by
  induction n generalizing s with
  | zero => exact h
  | succ n ih =>
    unfold State.run
    dsimp only
    split
    · exact ih (runOne h v)
    · exact runOne h v

/-- The player of a cue that has just been put on a voice, which has no player yet (R75, R86). -/
theorem startPlayer (h : s.Booked cap) (v : VoiceId) (c : Cue) (hc : (s.voice v).current.isSome)
    (hp : (s.voice v).player = none) : (s.startPlayer v c).Booked cap := by
  have fresh : ∀ {p : Player} env, p.call = none → (s.putPlayer v p env).Booked cap := fun env hn =>
    State.Books.putPlayer_same h v _ env hc fun a => by rw [hp, playerClaims_of_call_none hn]; rfl
  have tone : ∀ n d sh, (s.startTone v c n d sh).Booked cap := by
    intro n d sh
    unfold State.startTone
    dsimp only
    refine State.Books.startNote (fresh _ rfl) v _ c _ n d 15 8 ?_ ?_
    · rw [State.putPlayer, State.putVoice_same]; exact hc
    · intro a; rw [State.putPlayer, State.putVoice_same]
  unfold State.startPlayer
  split
  · exact run (fresh _ rfl) _ v
  · exact tone _ _ _
  · exact tone _ _ _
  · exact h

theorem endStep (h : s.Booked cap) (v : VoiceId) (p : Player) (hc : (s.voice v).current.isSome)
    (hp : (s.voice v).player = some p) : (s.endStep v p).Booked cap := by
  unfold State.endStep
  refine run (State.Books.putPlayer_same h v _ _ hc ?_) _ v
  exact playerClaims_nextStep hp rfl

/-! ### Streams in playback (R131 to R136) -/

theorem startStream (h : s.Booked cap) (c : Cue) : (s.startStream c).Booked cap := by
  unfold State.startStream
  split
  · split
    · dsimp only
      split
      · exact State.Books.enterEnding (State.Books.putStream h _ _) _ _
      · exact State.Books.putStream h _ _
    · exact h
  · exact h

theorem resume (h : s.Booked cap) (i : StreamSlotId) (x : OpenStream) : (s.resume i x).Booked cap := by
  unfold State.resume
  dsimp only
  split
  · exact State.Books.enterEnding ((State.Books.putStream h _ _).offer _) _ _
  · exact (State.Books.putStream h _ _).offer _

theorem starve (h : s.Booked cap) (i : StreamSlotId) (x : OpenStream) : (s.starve i x).Booked cap := by
  unfold State.starve
  dsimp only
  split
  · exact (State.Books.putStream h _ _).offer _
  · exact State.Books.enterEnding ((State.Books.putStream h _ _).offer _) _ _

theorem useUp (h : s.Booked cap) (i : StreamSlotId) (x : OpenStream) : (s.useUp i x).Booked cap := by
  unfold State.useUp
  dsimp only
  have k : ∀ u y n, (State.credit n ({ s with streams := u }.putStream i y)).Booked cap := fun u y n =>
    State.Books.credit (State.Books.putStream (State.Books.congr (t := { s with streams := u }) h rfl rfl rfl) _ _) _
  split
  · split
    · exact State.Books.enterEnding (k _ _ _) _ _
    · exact starve (k _ _ _) _ _
  · exact k _ _ _

theorem finishBlock (h : s.Booked cap) : s.finishBlock.Booked cap := by
  unfold State.finishBlock
  split
  · exact useUp h _ _
  · exact h

theorem starveLimit (h : s.Booked cap) (i : StreamSlotId) : (s.starveLimit i).Booked cap := by
  unfold State.starveLimit
  split
  · split
    · dsimp only
      split
      · exact State.Books.enterEnding (State.Books.putStream h _ _) _ _
      · exact State.Books.putStream h _ _
    · exact h
  · exact h

theorem storeBlock (h : s.Booked cap) (i : StreamSlotId) (x : OpenStream) (d : List Byte) :
    (s.storeBlock i x d).Booked cap := by
  unfold State.storeBlock
  split
  · exact h
  · have k : ∀ u, State.Booked cap { s with streams := u } := fun u => State.Books.congr h rfl rfl rfl
    dsimp only
    split
    · exact (State.Books.putStream (k _) _ _).askPass
    · split
      · exact resume (k _) _ _
      · exact State.Books.putStream (k _) _ _

/-! ### Cues starting and passes (R31 to R43) -/

/-- A cue starts on a voice of its class in the place of what the voice held: what it claims is in hand, and what the voice
held is given up (R33, R38). -/
theorem startCue (h : s.Books cap hand lost) (v : VoiceId) (c : Cue) (hv : v ∈ c.source.voices)
    (e : ∀ a, hand a + (s.voice v).claims a = lost a + c.claims a) : (s.startCue v c).Booked cap := by
  have put : (s.putVoice v (Voice.starting v c s.now)).Booked cap :=
    (h.putVoice v _ (Voice.starting_ok v c s.now hv)).rebalance fun a => by
      have := e a
      have : (Voice.starting v c s.now).claims a = c.claims a := by simp [Voice.claims, Voice.starting]
      simp only [Pi.add_apply, Pi.zero_apply]
      omega
  have k := State.Books.offer put (.cueStarted c.tag v)
  have written : ((s.putVoice v (Voice.starting v c s.now)).offer (.cueStarted c.tag v)).voice v =
      Voice.starting v c s.now := State.putVoice_same _ _ _
  unfold State.startCue
  dsimp only
  refine State.Books.choke ?_ v c
  split
  · exact startStream k c
  · exact startPlayer k v c (by rw [written]; rfl) (by rw [written]; rfl)

/-- The steal of a voice whose PLAYING cue has a lower priority (R35). -/
theorem steal (h : s.Booked cap) {e : Entry} (he : e ∈ s.sched.entries) {v : VoiceId} {k : Current}
    (hv : v ∈ e.cue.source.voices) (hk : (s.voice v).current = some k)
    (ha : (s.voice v).state = .active) (hp : k.cue.priority < e.cue.priority) : (s.steal v e.cue).Booked cap := by
  have hi := ((h.voice_ok v).of_active ha).2.1
  unfold State.steal
  simp only [Voice.rateStep_current, hk]
  generalize hrec : ({ (s.voice v).rateStep with
    state := .handoff
    releaseMode := some .fast
    current := some (k.withReason .stolen)
    incoming := some e.cue.placed
    env := (s.voice v).rateStep.env.fastRelease } : Voice) = rec
  have ok : rec.Ok v := by
    subst hrec
    exact ⟨⟨_, _, rfl, rfl, rfl, rfl, hp⟩, fun k' hk' => by cases hk'; exact (h.voice_ok v).2.1 k hk,
      fun c hc => by cases hc; exact hv⟩
  have claims : ∀ a, rec.claims a = (s.voice v).claims a + e.cue.claims a := by
    intro a
    subst hrec
    simp only [Voice.claims, currentClaims_some, incomingClaims_some, Current.withReason_claims, Cue.placed_claims,
      Voice.rateStep_player, hk, hi, incomingClaims_none]
    omega
  refine State.Books.freezeStream ?_ v k.cue.tag
  refine ((State.Books.dropEntry h he (claims_tag_le h _)).putVoice v rec ok).rebalance fun a => ?_
  have := claims a
  have e : (s.dropEntry e.cue.tag).voice v = s.voice v := rfl
  simp only [e, Pi.add_apply, Pi.zero_apply]
  omega

theorem serveCue (h : s.Booked cap) {e : Entry} (he : e ∈ s.sched.entries) : (s.serveCue e.cue).Booked cap := by
  unfold State.serveCue
  split
  · exact h
  · split
    · rename_i v hi
      obtain ⟨hv, hs⟩ := State.idleVoice_some hi
      refine startCue (State.Books.dropEntry h he (claims_tag_le h _)) v e.cue.placed hv fun a => ?_
      have e' : (s.dropEntry e.cue.tag).voice v = Voice.idle := (h.voice_ok v).eq_idle hs
      simp [e']
    · rename_i v _ hc
      obtain ⟨hv, k, ha, hk, hp⟩ := State.candidate_some hc
      exact steal h he hv hk ha hp
    · split
      · exact State.Books.removeEntry h _ _
      · exact h

theorem serveTag (h : s.Booked cap) (tag : Tag) : (s.serveTag tag).Booked cap := by
  unfold State.serveTag
  split
  · rename_i e he
    split
    · exact serveCue h (List.mem_of_find?_eq_some he)
    · exact h
  · exact h

theorem pass (h : s.Booked cap) : s.pass.Booked cap :=
  Closed.foldl (P := State.Booked cap) _ (fun _ _ hs => serveTag hs _) _ _ h

/-- The departing cue ends, and the incoming cue of a HANDOFF voice starts (R38, R40, R42). -/
theorem handOver (h : s.Booked cap) (v : VoiceId) : (s.handOver v).Booked cap := by
  unfold State.handOver
  cases hc : (s.voice v).incoming with
  | none => exact State.Books.endToIdle h v hc
  | some c =>
    refine startCue (State.Books.endCurrent h v) v c ((h.voice_ok v).2.2 c hc) fun a => ?_
    have e : (s.endCurrent v).voice v = s.voice v := by simp [State.voice]
    simp only [e, Voice.claims, hc, incomingClaims_some, Pi.zero_apply]
    omega

theorem endAtOnce (h : s.Booked cap) (v : VoiceId) (r : EndReason) : (s.endAtOnce v r).Booked cap := by
  unfold State.endAtOnce
  split
  · rename_i hc
    exact handOver (State.Books.putVoice_same_claims h v _ ((h.voice_ok v).endingAtOnce r hc)
      ((s.voice v).endingAtOnce_claims r)) v
  · exact h

end State.Books

end Sys2Proof.Machine
end

section
/-! The scheduler, the triggers, the requests and the phrase store keep the books (chapters 1, 3 and 8). -/

namespace Sys2Proof.Machine

/-! ### Acceptance (R16, R17) -/

/-- A template that no condition of R16 refuses: its tag is free, its phrase READY, and the schedule has room. -/
theorem State.playRefusal_none {s : State} {t : Template} (h : s.playRefusal t = none) :
    t.tag ∉ s.sched.live ∧ (∀ id, t.source = .phrase id → (s.phrase id).state = .ready) ∧ s.sched.entries.length < 48 := by
  unfold State.playRefusal at h
  split at h
  · cases h
  rename_i hl
  split at h
  · cases h
  split at h
  · cases h
  dsimp only at h
  split at h
  · cases h
  rename_i ho
  split at h
  · rename_i hn
    refine ⟨by simpa [State.isLive] using hl, fun id e => ?_, hn⟩
    rw [e] at ho
    dsimp only at ho
    split at ho
    · rename_i hr
      simpa only [State.phraseReady, beq_iff_eq] using hr
    · cases ho
  · cases h

/-- The record of an accepted cue in the schedule, its tag in the live set, its source not yet taken hold of (R17 steps 1
to 3). -/
def State.entered (s : State) (t : Template) : State :=
  { s with
    sched :=
      { s.sched with
        entries := insertEntry { cue := s.newCue t, state := .scheduled } s.sched.entries
        live := s.sched.live ++ [t.tag]
        counter := s.sched.counter + 1 } }

theorem State.accept_eq (s : State) (t : Template) : s.accept t = (s.entered t).holdSource (s.newCue t) := rfl

@[simp] theorem State.newCue_source (s : State) (t : Template) : (s.newCue t).source = t.source := rfl
@[simp] theorem State.newCue_tag (s : State) (t : Template) : (s.newCue t).tag = t.tag := rfl

theorem State.entered_ledger (s : State) (t : Template) (a : Account) :
    (s.entered t).ledger a = s.ledger a + tagClaims t.tag a := by
  cases a with
  | phrase id => rfl
  | tag y => simp only [State.ledger, State.entered, List.count_append, List.count_singleton, beq_iff_eq, tagClaims]

theorem State.entered_claims (s : State) (t : Template) (a : Account) :
    (s.entered t).claims a = s.claims a + (s.newCue t).claims a := by
  have h : ((insertEntry { cue := s.newCue t, state := .scheduled } s.sched.entries).map fun e => e.cue.claims a).sum =
      (s.newCue t).claims a + (s.sched.entries.map fun e => e.cue.claims a).sum :=
    ((insertEntry_perm _ _).map _).sum_eq
  simp only [State.claims, State.entered, State.voice] at *
  omega

/-! ### Places (R3, R4) -/

/-- A place that the part names for a tag holds a cue of that tag. -/
def State.HeldAt (s : State) (tag : Tag) : Place → Prop
  | .entry e => e ∈ s.sched.entries ∧ e.cue.tag = tag
  | .incoming v c => (s.voice v).incoming = some c ∧ c.tag = tag
  | .current v k => (s.voice v).current = some k ∧ k.cue.tag = tag

theorem State.voicePlace_held {s : State} {tag : Tag} {v : VoiceId} {p : Place} (h : s.voicePlace tag v = some p) :
    s.HeldAt tag p := by
  unfold State.voicePlace at h
  cases hi : (s.voice v).incoming with
  | none =>
    cases hc : (s.voice v).current with
    | none => simp only [hi, hc, reduceCtorEq] at h
    | some k =>
      simp only [hi, hc, Option.ite_none_right_eq_some, Option.some.injEq] at h
      obtain ⟨ht, rfl⟩ := h
      exact ⟨hc, ht⟩
  | some c =>
    simp only [hi] at h
    split at h
    · rename_i ht
      cases h
      exact ⟨hi, ht⟩
    · obtain ⟨k, hk, h⟩ := Option.bind_eq_some_iff.mp h
      obtain ⟨ht, e⟩ := Option.ite_none_right_eq_some.mp h
      cases e
      exact ⟨hk, ht⟩

theorem State.place_held {s : State} {tag : Tag} {p : Place} (h : s.place tag = some p) : s.HeldAt tag p := by
  unfold State.place at h
  split at h
  · rename_i e he
    cases h
    exact ⟨List.mem_of_find?_eq_some he, by simpa using List.find?_some he⟩
  · obtain ⟨v, -, hv⟩ := List.exists_of_findSome?_eq_some h
    exact State.voicePlace_held hv

/-- A new volume moves the envelope only. -/
theorem Voice.revolume_eq (v : VoiceId) (r : Voice) (x : Option Nat) :
    Voice.revolume v r x = { r with env := (Voice.revolume v r x).env } := by
  unfold Voice.revolume
  split
  · split
    · rw [Voice.rateStep_eq]
    · rfl
  · rfl

/-! ### Phrase slots (R49, R63) -/

theorem PhraseStore.putSlot_slots (ps : PhraseStore) (id j : PhraseId) (p : PhraseSlot) :
    (ps.putSlot id p).slots[j] = if id = j then p else ps.slots[j] := by
  simp [PhraseStore.putSlot, Vector.getElem_set, Fin.ext_iff]

namespace State.Books

variable {cap : Nat} {hand lost : Account → Nat} {s t : State}

/-! ### Removals and ends of many cues -/

theorem endLive (h : s.Booked cap) (tag : Tag) (r : EndReason) : (s.endLive tag r).Booked cap := by
  unfold State.endLive
  split
  · exact removeEntry h _ _
  · exact removeIncoming h _ _
  · exact endAtOnce h _ _
  · exact h

theorem quietAll (h : s.Booked cap) (r : EndReason) : (s.quietAll r).Booked cap := by
  have fold : ∀ {α : Type} (f : State → α → State), (∀ (s : State) a, s.Booked cap → (f s a).Booked cap) →
      ∀ (l : List α) {s : State}, s.Booked cap → (l.foldl f s).Booked cap :=
    fun f hf l s hs => Closed.foldl (P := State.Booked cap) f hf l s hs
  unfold State.quietAll
  refine congr (s := _) ?_ (disarmAll_sched _) (by rw [disarmAll_alloc]) (disarmAll_store _)
  exact fold _ (fun _ i hs => hs.closeStream i) _ (fold _ (fun _ v hs => endAtOnce hs v r) _
    (fold _ (fun _ v hs => removeIncoming hs v r) _ (fold _ (fun _ t hs => removeEntry hs t r) _ h)))

/-! ### Acceptance and the moves of entries (R8, R10, R12, R17) -/

/-- An accepted cue enters the schedule, and its source is taken hold of. -/
theorem accept (h : s.Booked cap) (hcap : 48 ≤ cap) (x : Template) (hx : s.playRefusal x = none) :
    (s.accept x).Booked cap := by
  obtain ⟨hl, hr, hn⟩ := State.playRefusal_none hx
  have into : (s.entered x).Books cap 0 (sourceClaims x.source) := by
    refine ⟨h.voices, fun y => ?_, h.ready, fun a => ?_, ?_⟩
    · simp only [State.entered, List.count_append, List.count_singleton, beq_iff_eq]
      have := h.single y
      split
      · rename_i e; subst e; rw [List.count_eq_zero.mpr hl]
      · omega
    · have hb := h.balanced a
      have := s.entered_ledger x a
      have := s.entered_claims x a
      have : (s.newCue x).claims a = tagClaims x.tag a + sourceClaims x.source a := (s.newCue x).claims_eq a
      simp only [Pi.zero_apply] at *
      omega
    · rw [State.entered, insertEntry_length]; omega
  have kept : (∀ a, sourceClaims x.source a = 0) → ∀ {u : State}, u.Books cap 0 (sourceClaims x.source) → u.Booked cap :=
    fun hz _ hu => hu.rebalance fun a => by simp [hz a]
  rw [State.accept_eq, State.holdSource, State.newCue_source]
  split
  · rename_i id e
    refine (into.refUp id (hr id e)).rebalance fun a => ?_
    simp [e, sourceClaims]
  · rename_i id e
    refine kept (by simp [e, sourceClaims]) ?_
    unfold State.bind
    split
    · exact into.putStream _ _
    · exact into
  · rename_i e
    exact kept (by simp [e, sourceClaims]) into
  · rename_i e
    exact kept (by simp [e, sourceClaims]) into

/-- Entries that move keep their cues' tags and sources. -/
theorem moveEntries (h : s.Books cap hand lost) (takes : Entry → Bool) (move : Entry → Entry)
    (hm : ∀ e, (move e).cue.tag = e.cue.tag ∧ (move e).cue.source = e.cue.source) :
    (s.moveEntries takes move).Books cap hand lost := by
  unfold State.moveEntries
  dsimp only
  have moved : State.Books cap hand lost
      { s with sched := { s.sched with entries := s.sched.entries.map fun e => if takes e then move e else e } } := by
    refine ⟨h.voices, h.single, h.ready, fun a => ?_, by simpa using h.room⟩
    have hb := h.balanced a
    have hc : ((s.sched.entries.map fun e => if takes e then move e else e).map fun e => e.cue.claims a) =
        s.sched.entries.map fun e => e.cue.claims a := by
      rw [List.map_map]
      refine List.map_congr_left fun e _ => ?_
      simp only [Function.comp_apply]
      split
      · exact Cue.claims_congr (hm e).1 (hm e).2 a
      · rfl
    have hl : State.ledger
        { s with sched := { s.sched with entries := s.sched.entries.map fun e => if takes e then move e else e } } a =
        s.ledger a := State.ledger_congr rfl rfl a
    rw [hl]
    simp only [State.claims, State.voice, hc] at *
    exact hb
  split
  · exact moved.askPass
  · exact moved

theorem dueOwn (h : s.Books cap hand lost) (n : BitVec 32) : (s.dueOwn n).Books cap hand lost :=
  h.moveEntries _ _ fun e => by unfold Entry.becomeDue; cases e.cue.quantize <;> exact ⟨rfl, rfl⟩

theorem dueEvent (h : s.Books cap hand lost) : s.dueEvent.Books cap hand lost :=
  h.moveEntries _ _ fun e => by unfold Entry.becomeDue; cases e.cue.quantize <;> exact ⟨rfl, rfl⟩

theorem releaseEvent (h : s.Books cap hand lost) (b : Nat) : (s.releaseEvent b).Books cap hand lost :=
  h.moveEntries _ _ fun _ => ⟨rfl, rfl⟩

theorem dueSince (h : s.Booked cap) (n : BitVec 32) : (s.dueSince n).Booked cap :=
  Closed.foldl (P := State.Booked cap) _ (fun _ _ hs => State.Books.dueOwn hs _) _ _ h

theorem deadline (h : s.Booked cap) (tag : Tag) : (s.deadline tag).Booked cap := by
  unfold State.deadline
  split
  · split
    · exact removeEntry h _ _
    · exact h
  · exact h

theorem deliverBeat (h : s.Booked cap) : s.deliverBeat.Booked cap :=
  (State.Books.releaseEvent h _).offer _

/-! ### Firing (R147 to R151) -/

theorem fireTemplate (h : s.Booked cap) (hcap : 48 ≤ cap) (i : TriggerId) (x : Template) :
    (s.fireTemplate i x).Booked cap := by
  unfold State.fireTemplate
  split
  · exact State.Books.offer h _
  · rename_i hx
    exact State.Books.offer (accept h hcap x hx) _

theorem fireSlot (h : s.Booked cap) (hcap : 48 ≤ cap) (i : TriggerId) (a : Armed) : (s.fireSlot i a).Booked cap := by
  unfold State.fireSlot
  split
  · split
    · exact State.Books.offer h _
    · exact fireTemplate (endLive h _ _) hcap i _
  · exact fireTemplate h hcap i _

theorem serveTrigger (h : s.Booked cap) (hcap : 48 ≤ cap) (l : TrgLine) (b : Bool) (i : TriggerId) :
    (State.serveTrigger l b s i).Booked cap := by
  unfold State.serveTrigger
  split
  · split
    · dsimp only
      split
      · exact State.Books.congr (fireSlot h hcap i _) (putTrigger_sched _ _ _) (by rw [putTrigger_alloc])
          (putTrigger_store _ _ _)
      · exact fireSlot h hcap i _
    · exact h
  · exact h

theorem fire (h : s.Booked cap) (hcap : 48 ≤ cap) (l : TrgLine) : (s.fire l).Booked cap := by
  unfold State.fire
  split
  · refine dueSince ?_ _
    exact Closed.foldl (P := State.Booked cap) _ (fun _ i hs => serveTrigger hs hcap _ _ i) _ _
      (State.Books.congr h rfl rfl rfl)
  · exact h

/-! ### The requests of the scheduler (R16 to R24) -/

theorem ownPlay (h : s.Booked cap) (hcap : 48 ≤ cap) (f : List Byte) : (Machine.ownPlay f s).1.Booked cap := by
  unfold Machine.ownPlay
  dsimp only
  split
  · exact h
  · rename_i hx
    exact State.Books.dueOwn (accept h hcap _ hx) _

theorem removeSelected (h : s.Booked cap) (a : Addressed) (r : EndReason) : (s.removeSelected a r).Booked cap :=
  Closed.foldl (P := State.Booked cap) _ (fun _ v hs => removeIncoming hs v r) _ _
    (Closed.foldl (P := State.Booked cap) _ (fun _ t hs => removeEntry hs t r) _ _ h)

theorem stopOne {c : Counted} (h : c.state.Booked cap) (vt : VoiceId × Tag) : (c.stop vt).state.Booked cap := by
  unfold Counted.stop
  split
  · split
    · exact enterEnding h _ _
    · exact h
  · exact h

theorem cutOne {c : Counted} (h : c.state.Booked cap) (vt : VoiceId × Tag) : (c.cut vt).state.Booked cap := by
  unfold Counted.cut
  split
  · exact endAtOnce h _ _
  · exact h

theorem stopAll (l : List (VoiceId × Tag)) {c : Counted} (h : c.state.Booked cap) :
    (l.foldl Counted.stop c).state.Booked cap := by
  induction l generalizing c with
  | nil => exact h
  | cons x l ih => exact ih (stopOne h x)

theorem cutAll (l : List (VoiceId × Tag)) {c : Counted} (h : c.state.Booked cap) :
    (l.foldl Counted.cut c).state.Booked cap := by
  induction l generalizing c with
  | nil => exact h
  | cons x l ih => exact ih (cutOne h x)

theorem ownStop (h : s.Booked cap) (f : List Byte) : (Machine.ownStop f s).1.Booked cap := by
  have tagged : ∀ tag, (s.stopTag tag).1.Booked cap := by
    intro tag
    unfold State.stopTag
    split
    · exact h
    split
    · exact removeEntry h _ _
    · exact removeIncoming h _ _
    · split
      · exact enterEnding h _ _
      · exact h
    · exact h
  have addressed : ∀ a, (s.stopAddressed a).1.Booked cap := fun a => stopAll _ (removeSelected h a _)
  unfold Machine.ownStop
  split
  · exact tagged _
  · split
    · exact h
    · exact addressed _
  · exact addressed _

theorem ownCut (h : s.Booked cap) (f : List Byte) : (Machine.ownCut f s).1.Booked cap := by
  have tagged : ∀ tag, (s.cutTag tag).1.Booked cap := by
    intro tag
    unfold State.cutTag
    split
    · exact h
    split
    · exact removeEntry h _ _
    · exact removeIncoming h _ _
    · exact endAtOnce h _ _
    · exact h
  have addressed : ∀ a, (s.cutAddressed a).1.Booked cap := fun a => cutAll _ (removeSelected h a _)
  unfold Machine.ownCut
  split
  · exact tagged _
  · split
    · exact h
    · exact addressed _
  · exact addressed _

/-- A cue is adjusted in its place, where R23 does not refuse it: the priority of an incoming cue stays above that of the
departing one. -/
theorem adjustPlace (h : s.Booked cap) {tag : Tag} {p : Place} (hp : s.HeldAt tag p) (x y : Option Nat)
    (hr : s.adjustRefused p y = false) : (s.adjustPlace p x y).Booked cap := by
  unfold State.adjustPlace
  cases p with
  | entry e =>
    refine ⟨h.voices, h.single, h.ready, fun a => ?_, by simpa using h.room⟩
    have hb := h.balanced a
    have hc : ((s.sched.entries.map fun z =>
          if z.cue.tag = e.cue.tag then { z with cue := z.cue.adjusted x y } else z).map fun e => e.cue.claims a) =
        s.sched.entries.map fun e => e.cue.claims a := by
      rw [List.map_map]
      refine List.map_congr_left fun z _ => ?_
      simp only [Function.comp_apply]
      split
      · exact z.cue.adjusted_claims x y a
      · rfl
    refine Eq.trans (congrArg (· + _) (State.ledger_congr rfl rfl a)) (hb.trans ?_)
    simp only [State.claims, State.voice, hc]
  | incoming v c =>
    have hs := (h.voice_ok v).handoff_of_incoming hp.1
    obtain ⟨k, c', hk, hc', hm, he, hlt⟩ := (h.voice_ok v).of_handoff hs
    obtain rfl : c = c' := Option.some.inj (hp.1.symm.trans hc')
    have hlt' : k.cue.priority < (c.adjusted x y).priority := by
      simp only [State.adjustRefused, hk] at hr
      cases y with
      | none => exact hlt
      | some z => simpa [Cue.adjusted] using hr
    refine State.Books.putVoice_same_claims h v _
      ⟨by simp only [hs]; exact ⟨k, _, hk, rfl, hm, he, hlt'⟩, (h.voice_ok v).2.1,
        fun d hd => by cases hd; exact (h.voice_ok v).2.2 c hp.1⟩ fun a => ?_
    simp only [Voice.claims, incomingClaims_some, Cue.adjusted_claims, hp.1]
  | current v k =>
    have hs : (s.voice v).state = .active := by
      simpa only [State.adjustRefused, bne_eq_false_iff_eq] using hr
    dsimp only
    rw [Voice.revolume_eq]
    obtain ⟨-, hi, hm⟩ := (h.voice_ok v).of_active hs
    refine State.Books.putVoice_same_claims h v _
      ⟨by simp only [hs]; exact ⟨rfl, hi, hm⟩, fun d hd => by cases hd; exact (h.voice_ok v).2.1 k hp.1,
        (h.voice_ok v).2.2⟩ fun a => ?_
    simp only [Voice.claims, currentClaims_some, Cue.adjusted_claims, hp.1]

theorem ownAdjust (h : s.Booked cap) (f : List Byte) : (Machine.ownAdjust f s).1.Booked cap := by
  unfold Machine.ownAdjust
  extract_lets tag volume priority
  split
  · exact h
  split
  · exact h
  split
  · exact h
  rename_i p hp
  split
  · exact h
  rename_i hr
  have k := adjustPlace h (State.place_held hp) volume priority (by simpa using hr)
  dsimp only
  split
  · exact State.Books.askPass k
  · exact k

/-! ### Streams (R127 to R139) -/

theorem ownData (h : s.Booked cap) (f : List Byte) : (Machine.ownData f s).1.Booked cap := by
  unfold Machine.ownData
  dsimp only
  split
  · exact h
  split
  · exact h
  split
  · exact h
  split
  · split
    · exact h
    · exact storeBlock h _ _ _
  split <;> exact h

theorem ownStreamEnd (h : s.Booked cap) (f : List Byte) : (Machine.ownStreamEnd f s).1.Booked cap := by
  unfold Machine.ownStreamEnd State.endData
  dsimp only
  split
  · exact h
  split
  · exact h
  split
  · exact h
  dsimp only
  split
  · exact (State.Books.putStream h _ _).askPass
  split
  · exact resume h _ _
  · exact State.Books.putStream h _ _

theorem ownAbort (h : s.Booked cap) (f : List Byte) : (Machine.ownAbort f s).1.Booked cap := by
  unfold Machine.ownAbort State.abort
  dsimp only
  split
  · exact h
  split
  · exact h
  dsimp only
  split
  · exact State.Books.closeStream h _
  split
  · exact endAtOnce h _ _
  · exact removeIncoming h _ _
  · exact removeEntry h _ _
  · exact State.Books.closeStream h _

/-! ### The phrase store (R57 to R61) -/

/-- A slot written keeps the books where its reference count is as it was, and only a READY slot is referred to. -/
theorem putSlot (h : s.Books cap hand lost) (id : PhraseId) (p : PhraseSlot) {ps : PhraseStore}
    (hps : ps.slots = s.store.slots.set id p) (hc : p.refs = (s.phrase id).refs) (hr : p.refs ≠ 0 → p.state = .ready) :
    State.Books cap hand lost { s with store := ps } := by
  have slot : ∀ j : PhraseId, ps.slots[j] = if id = j then p else s.phrase j := by
    intro j
    rw [hps]
    exact s.store.putSlot_slots id j p
  refine ⟨h.voices, h.single, fun j => ?_, fun a => ?_, h.room⟩
  · have := h.ready j
    simp only [State.phrase, slot]
    split
    · exact hr
    · exact this
  · have hb := h.balanced a
    refine Eq.trans ?_ hb
    cases a with
    | tag y => rfl
    | phrase j =>
      simp only [State.ledger, State.phrase, slot]
      split
      · rename_i e; subst e; rw [hc]
      · rfl

theorem ownBegin (h : s.Booked cap) (f : List Byte) : (Machine.ownBegin f s).1.Booked cap := by
  unfold Machine.ownBegin
  dsimp only
  split
  · exact h
  rename_i he
  split
  · exact h
  have hz : (s.phrase (phraseOf (u8 f 0))).refs = 0 := by
    by_contra hn
    have := h.ready _ hn
    rw [not_not.mp he] at this
    cases this
  exact putSlot h (phraseOf (u8 f 0)) _ rfl hz.symm fun hn => absurd rfl hn

theorem ownAdd (h : s.Booked cap) (f : List Byte) : (Machine.ownAdd f s).1.Booked cap := by
  unfold Machine.ownAdd
  split
  · exact h
  rename_i id _
  dsimp only
  split
  · exact h
  split
  · exact h
  split
  · exact h
  exact putSlot h id _ rfl rfl fun hn => h.ready id hn

theorem ownEnd (h : s.Booked cap) (f : List Byte) : (Machine.ownEnd f s).1.Booked cap := by
  unfold Machine.ownEnd
  split
  · exact h
  rename_i id _
  dsimp only
  split
  · exact h
  exact putSlot h id _ rfl rfl fun _ => rfl

theorem ownDrop (h : s.Booked cap) (f : List Byte) : (Machine.ownDrop f s).1.Booked cap := by
  unfold Machine.ownDrop
  dsimp only
  split
  · exact h
  split
  · exact h
  rename_i hz
  exact putSlot h (phraseOf (u8 f 0)) PhraseSlot.empty rfl (by simp only [PhraseSlot.empty]; omega)
    fun hn => absurd rfl hn

end State.Books

end Sys2Proof.Machine
end

section
/-! Every event, request, command and step keeps the books, which settles that cues stay placed (O60). -/

namespace Sys2Proof.Machine

/-- Books of a part that holds no cue and counts no reference. -/
theorem State.booked_of_empty {cap : Nat} {s : State} (he : s.sched.entries = []) (hl : s.sched.live = [])
    (hv : ∀ v, s.voice v = Voice.idle) (hr : ∀ id, (s.phrase id).refs = 0) : s.Booked cap where
  voices v := by rw [hv]; exact Voice.idle_ok v
  single t := by simp [hl]
  ready id hn := absurd (hr id) hn
  balanced a := by
    have hc : s.claims a = 0 := by simp only [State.claims, he, hv, Voice.idle_claims]; simp
    have hz : s.ledger a = 0 := by
      cases a with
      | tag t => simp [State.ledger, hl]
      | phrase id => exact hr id
    simp [hc, hz]
  room := by simp [he]

theorem Allocator.afterReset_voice (v : VoiceId) : Allocator.afterReset.voices[v] = Voice.idle := by
  simp [Allocator.afterReset]

theorem PhraseStore.afterPowerOn_refs (id : PhraseId) : (PhraseStore.afterPowerOn.slots[id]).refs = 0 := by
  simp [PhraseStore.afterPowerOn, PhraseSlot.empty]

theorem PhraseStore.afterPin_refs (ps : PhraseStore) (id : PhraseId) : (ps.afterPin.slots[id]).refs = 0 := by
  simp only [PhraseStore.afterPin, Fin.getElem_fin, Vector.getElem_map, PhraseSlot.afterPin]
  split <;> rfl

/-! ### Voices that a tick or an output sample moves -/

/-- A voice moves its envelope, its player's counts and its oscillator only, and not at all where it is IDLE. -/
def Voice.MovesTo (r r' : Voice) : Prop :=
  r'.state = r.state ∧ r'.current = r.current ∧ r'.incoming = r.incoming ∧ r'.releaseMode = r.releaseMode ∧
    r'.player.bind (·.call) = r.player.bind (·.call) ∧ (r = Voice.idle → r' = Voice.idle)

theorem Voice.MovesTo.ok {v : VoiceId} {r r' : Voice} (h : r.MovesTo r') (hr : r.Ok v) : r'.Ok v := by
  obtain ⟨hs, hk, hi, hm, -, hz⟩ := h
  by_cases hid : r.state = .idle
  · rw [hz (hr.eq_idle hid)]; exact Voice.idle_ok v
  · exact hr.congr (hr.current_isSome hid) hs hk hm hi

theorem Voice.MovesTo.claims {r r' : Voice} (h : r.MovesTo r') (a : Account) : r'.claims a = r.claims a := by
  obtain ⟨-, hk, hi, -, hp, -⟩ := h
  simp only [Voice.claims, hk, hi, playerClaims_congr hp]

theorem Voice.advance_movesTo (r : Voice) : r.MovesTo r.advance := by
  unfold Voice.advance
  split
  · rename_i hc
    refine ⟨rfl, rfl, rfl, rfl, ?_, fun h => by rw [h] at hc; cases hc⟩
    dsimp only
    split
    · cases r.player <;> rfl
    · rfl
  · exact ⟨rfl, rfl, rfl, rfl, rfl, id⟩

theorem Voice.toSample_movesTo (r : Voice) : r.MovesTo r.toSample :=
  ⟨rfl, rfl, rfl, rfl, rfl, fun h => by rw [h]; rfl⟩

theorem Voice.noiseShift_movesTo (r : Voice) : r.MovesTo r.noiseShift := by
  unfold Voice.noiseShift
  split
  · rename_i o ho
    dsimp only
    split
    · exact ⟨rfl, rfl, rfl, rfl, rfl, fun h => by rw [h] at ho; cases ho⟩
    · exact ⟨rfl, rfl, rfl, rfl, rfl, id⟩
  · exact ⟨rfl, rfl, rfl, rfl, rfl, id⟩

theorem Voice.rateStep_movesTo (r : Voice) : r.MovesTo r.rateStep :=
  ⟨r.rateStep_state, r.rateStep_current, r.rateStep_incoming, r.rateStep_releaseMode, by rw [r.rateStep_player],
    fun h => by rw [h]; rfl⟩

namespace State.Books

variable {cap : Nat} {hand lost : Account → Nat} {s t : State}

/-- Every voice moves. -/
theorem voicesMove (h : s.Books cap hand lost) (f : Voice → Voice) (hf : ∀ r : Voice, r.MovesTo (f r)) (hs : t.sched = s.sched)
    (hv : t.alloc.voices = s.alloc.voices.map f) (hp : t.store = s.store) : t.Books cap hand lost := by
  have voice : ∀ v, t.voice v = f (s.voice v) := fun v => by simp [State.voice, hv]
  refine ⟨fun v => ?_, by simpa only [hs] using h.single, by simpa only [State.phrase, hp] using h.ready, fun a => ?_,
    by simpa only [hs] using h.room⟩
  · rw [voice]; exact (hf _).ok (h.voice_ok v)
  · have hc : t.claims a = s.claims a := by simp only [State.claims, hs, voice, (hf _).claims]
    rw [State.ledger_congr (s := s) (by rw [hs]) (by rw [hp]), hc]
    exact h.balanced a

theorem advance (h : s.Books cap hand lost) (lines : Lines) : (s.advance lines).Books cap hand lost :=
  h.voicesMove _ Voice.advance_movesTo rfl rfl rfl

theorem clockVoices (h : s.Books cap hand lost) : s.clockVoices.Books cap hand lost :=
  h.voicesMove _ Voice.toSample_movesTo rfl rfl rfl

theorem moveVoice (h : s.Books cap hand lost) (v : VoiceId) {r : Voice} (hr : (s.voice v).MovesTo r) :
    (s.putVoice v r).Books cap hand lost :=
  h.putVoice_same_claims v r (hr.ok (h.voice_ok v)) hr.claims

theorem rateStep (h : s.Books cap hand lost) (v : VoiceId) : (s.rateStep v).Books cap hand lost :=
  h.moveVoice v (s.voice v).rateStep_movesTo

theorem gateEnd (h : s.Booked cap) (v : VoiceId) (hs : (s.voice v).state = .active) : (s.gateEnd v).Booked cap := by
  unfold State.gateEnd
  dsimp only
  split
  · rename_i p hp
    rw [Voice.rateStep_player] at hp
    obtain ⟨e1, e2, e3, e4, -, -⟩ := (s.voice v).rateStep_movesTo
    refine State.Books.moveVoice h v ⟨e1, e2, e3, e4, ?_, fun hi => ?_⟩
    · rw [hp]; rfl
    · rw [hi] at hs; cases hs
  · exact h

theorem stepOver (h : s.Booked cap) (v : VoiceId) (hs : (s.voice v).state = .active) : (s.stepOver v).Booked cap := by
  have written : (s.rateStep v).voice v = (s.voice v).rateStep := State.putVoice_same _ _ _
  unfold State.stepOver
  split
  · rename_i p hp
    refine endStep (State.Books.rateStep h v) v p ?_ ?_
    · rw [written, Voice.rateStep_current]
      exact ((h.voice_ok v).of_active hs).1
    · rw [written, Voice.rateStep_player, hp]
  · exact h

theorem duckStep (h : s.Books cap hand lost) : s.duckStep.Books cap hand lost := by
  unfold State.duckStep
  split
  · exact h.congr rfl rfl rfl
  · exact h

theorem sampleOutput (h : s.Booked cap) : s.sampleOutput.Booked cap := by
  have sampled : ∀ {u : State}, u.Booked cap → u.takeSample.2.Booked cap := by
    intro u hu
    unfold State.takeSample
    split
    · split
      · split
        · exact State.Books.putStream hu _ _
        · exact hu
      · exact hu
    · exact hu
  exact State.Books.congr (sampled (State.Books.clockVoices (finishBlock h))) rfl rfl rfl

/-! ### The time base and the link -/

theorem chooseFrame (h : s.Books cap hand lost) : s.chooseFrame.Books cap hand lost :=
  h.congr (chooseFrame_sched s) (by rw [chooseFrame_alloc]) (chooseFrame_store s)

theorem takeInternalEdge (h : s.Booked cap) : s.takeInternalEdge.Booked cap :=
  deliverBeat (State.Books.congr (t := { s with time := s.time.internalLength.movePosition }) h rfl rfl rfl)

theorem takeSyncEdge (h : s.Booked cap) : s.takeSyncEdge.Booked cap := by
  unfold State.takeSyncEdge
  dsimp only
  refine deliverBeat (State.Books.congr h ?_ ?_ ?_) <;> dsimp only <;> split <;> rfl

theorem takeBeat (h : s.Booked cap) : s.takeBeat.Booked cap := by
  unfold State.takeBeat
  split
  · exact takeInternalEdge h
  · exact takeSyncEdge h
  · exact h

theorem takeLoss (h : s.Booked cap) : s.takeLoss.Booked cap := by
  unfold State.takeLoss
  split
  · exact State.Books.congr h rfl rfl rfl
  · exact h

theorem stall (h : s.Booked cap) : s.stall.Booked cap := by
  have k : State.Booked cap { s with link := { s.link with session := .stalled } } := State.Books.congr h rfl rfl rfl
  unfold State.stall
  split
  · exact quietAll k _
  · exact k

theorem silence (h : s.Booked cap) : s.silence.Booked cap := by
  unfold State.silence
  split
  · exact stall h
  · exact h

theorem retransmit (h : s.Booked cap) : s.retransmit.Booked cap := by
  unfold State.retransmit
  split
  · split
    · exact State.Books.congr h rfl rfl rfl
    · exact stall h
  · exact h

theorem first (h : s.Booked cap) (due : Bool) {event : State → State} (he : (event s).Booked cap) :
    (s.first due event).Booked cap := by
  unfold State.first
  split
  · exact State.Books.chooseFrame he
  · exact h

theorem linkFirst (h : s.Booked cap) : s.linkFirst.Booked cap :=
  have k := first h _ (silence h)
  first k _ (retransmit k)

theorem ownerFirst (h : s.Booked cap) (r : Request) (f : List Byte) : (s.ownerFirst r f).Booked cap := by
  have beat : s.beatFirst.Booked cap :=
    have k := first h _ (takeBeat h)
    first k _ (takeLoss k)
  have limit : (s.limitFirst (u8 f 0)).Booked cap := by
    unfold State.limitFirst
    split
    · exact first h _ (starveLimit h _)
    · exact h
  cases r with
  | clockSet => exact beat
  | clockBar => exact beat
  | clockRead => exact beat
  | streamData => exact limit
  | streamEnd => exact limit
  | _ => exact h

/-! ### Requests -/

/-- Every owner of a request. -/
theorem own (h : s.Booked cap) (hcap : 48 ≤ cap) (r : Request) (f : List Byte) : (r.own f s).1.Booked cap := by
  have pitched : ∀ m, State.Booked cap { s with pitchMap := m } := fun m => State.Books.congr h rfl rfl rfl
  cases r with
  | linkOpen =>
    simp only [Request.own, ownLinkOpen]
    exact State.Books.congr h rfl rfl rfl
  | status => exact h
  | systemReset =>
    simp only [Request.own, ownReset]
    split
    · exact quietAll h _
    · exact h
  | reportSelect => exact State.Books.congr h rfl rfl rfl
  | reportAck =>
    simp only [Request.own, ownAck]
    split
    · exact State.Books.congr h rfl rfl rfl
    · split <;> exact h
  | cuePlay => exact ownPlay h hcap f
  | cueStop => exact ownStop h f
  | cueCut => exact ownCut h f
  | cueAdjust => exact ownAdjust h f
  | cueQuery => exact Closed.ownQuery (P := State.Booked cap) f s h
  | phraseBegin => exact ownBegin h f
  | phraseAdd => exact ownAdd h f
  | phraseEnd => exact ownEnd h f
  | phraseDrop => exact ownDrop h f
  | phraseInfo => exact h
  | mapWrite =>
    simp only [Request.own, ownMapWrite]
    split
    · exact h
    · split
      · exact h
      · exact pitched _
  | mapRead => simp only [Request.own, ownMapRead]; split <;> exact h
  | mapRestore => exact pitched _
  | outputSet =>
    simp only [Request.own, ownOutputSet]
    split
    · exact State.Books.congr (State.Books.duckStep h) rfl rfl rfl
    · exact State.Books.congr h rfl rfl rfl
  | clockSet => exact State.Books.congr h rfl rfl rfl
  | clockBar => exact State.Books.congr h rfl rfl rfl
  | clockRead => exact h
  | streamOpen =>
    simp only [Request.own, ownOpen]
    split
    · exact h
    · split
      · exact h
      · exact State.Books.putStream h _ _
  | streamData => exact ownData h f
  | streamEnd => exact ownStreamEnd h f
  | streamAbort => exact ownAbort h f
  | triggerArm =>
    simp only [Request.own, ownArm]
    split
    · exact h
    · exact State.Books.congr h rfl rfl rfl
  | triggerDisarm =>
    simp only [Request.own, ownDisarm]
    split <;> exact State.Books.congr h rfl rfl rfl

theorem take (h : s.Booked cap) (num code : Byte) (f : List Byte) (answer : State → State × Answer)
    (ha : ∀ {u : State}, u.Booked cap → (answer u).1.Booked cap) : (s.take num code f answer).Booked cap := by
  have k := linkFirst h
  unfold State.take State.takeNow
  generalize s.linkFirst = u at k
  have kh : State.Booked cap { u with link := u.link.heard } := State.Books.congr k rfl rfl rfl
  dsimp only
  split
  · exact State.Books.congr kh rfl rfl rfl
  · split
    · exact State.Books.congr kh rfl rfl rfl
    · exact State.Books.congr (ha kh) rfl rfl rfl

theorem takeRequest (h : s.Booked cap) (hcap : 48 ≤ cap) (r : Request) (num : Byte) (f : List Byte) :
    (s.takeRequest r r.carried num f).Booked cap := by
  refine take h _ _ _ _ fun {u} hu => ?_
  unfold checked
  split
  · exact hu
  · exact own (ownerFirst hu r f) hcap r f

theorem takeFrame (h : s.Booked cap) (hcap : 48 ≤ cap) (num : Byte) (body : List Byte) :
    (s.takeFrame num body).Booked cap := by
  unfold State.takeFrame
  split
  · exact take h _ _ _ _ id
  · split
    · exact takeRequest h hcap _ _ _
    · exact take h _ _ _ _ id

theorem receive (hcap : 48 ≤ cap) (a : Bool) (n : Nat) (held input : List Byte) (h : s.Booked cap) :
    (State.receive a n held input s).Booked cap := by
  have hold : ∀ {u : State} b, u.Booked cap → (u.hold b).Booked cap := fun b hu => State.Books.congr hu rfl rfl rfl
  have discard : ∀ {u : State}, u.Booked cap → u.countDiscard.Booked cap := fun hu => State.Books.congr hu rfl rfl rfl
  induction n generalizing held input s with
  | zero => exact hold _ h
  | succ n ih =>
    cases input with
    | nil =>
      cases held with
      | nil => exact hold _ h
      | cons b rest =>
        simp only [State.receive]
        split
        · exact ih _ _ (discard h)
        · exact hold _ h
    | cons b input =>
      simp only [State.receive]
      split
      · split <;> exact ih _ _ h
      · split
        · exact ih _ _ h
        · exact ih _ _ (discard (hold _ h))
        · exact ih _ _ (takeFrame h hcap _ _)

theorem discardFrame (h : s.Booked cap) (hcap : 48 ≤ cap) (a : Bool) : (s.discardFrame a).Booked cap := by
  unfold State.discardFrame
  split
  · exact h
  · exact receive hcap _ _ _ _ (State.Books.congr h rfl rfl rfl)

theorem abandonFrame (h : s.Booked cap) (hcap : 48 ≤ cap) : s.abandonFrame.Booked cap := by
  unfold State.abandonFrame
  split
  · exact discardFrame h hcap _
  · exact h

theorem byteIn (h : s.Booked cap) (hcap : 48 ≤ cap) (b : Byte) : (s.byteIn b).Booked cap := by
  have k := abandonFrame h hcap
  unfold State.byteIn State.takeByte
  generalize s.abandonFrame = u at k
  refine receive hcap _ _ _ _ ?_
  split
  · exact k
  · exact State.Books.congr k rfl rfl rfl

/-! ### Resets, events, commands and steps -/

/-- After a reset no cue is held and no reference counted. -/
theorem restart (s : State) (cause : ResetCause) (straps : Straps) (ps : PhraseStore) (m : Vector Nat 128)
    (hr : ∀ id : PhraseId, ps.slots[id].refs = 0) : (s.restart cause straps ps m).Booked cap :=
  State.booked_of_empty rfl rfl Allocator.afterReset_voice hr

theorem powerOn (s : State) (straps : Straps) : (s.powerOn straps).Booked cap :=
  restart s _ _ _ _ PhraseStore.afterPowerOn_refs

theorem resetKept (s : State) (cause : ResetCause) (straps : Straps) : (s.resetKept cause straps).Booked cap :=
  restart s _ _ _ _ s.store.afterPin_refs

theorem replySent (h : s.Booked cap) : s.replySent.Booked cap := by
  unfold State.replySent
  split
  · exact State.Books.congr (resetKept s .soft s.straps) rfl rfl rfl
  split
  · exact State.Books.congr h rfl rfl rfl
  · exact h

theorem softReset (h : s.Booked cap) (straps : Straps) : (s.softReset straps).Booked cap := by
  unfold State.softReset
  split
  · exact resetKept _ _ _
  split
  · exact State.Books.congr h rfl rfl rfl
  · exact h

/-- Every event that stands. -/
theorem carry (h : s.Booked cap) (hcap : 48 ≤ cap) (e : Event) (hs : s.stands e = true) : (s.carry e).Booked cap := by
  cases e with
  | pass => exact pass (State.Books.congr h rfl rfl rfl)
  | due => exact State.Books.dueEvent h
  | internalEdge => exact takeInternalEdge h
  | syncEdge => exact takeSyncEdge h
  | loss => exact takeLoss h
  | firing l => exact fire h hcap l
  | rate v => exact State.Books.rateStep h v
  | gate v =>
    simp only [State.stands, Voice.gateOut, Bool.and_eq_true, beq_iff_eq] at hs
    exact gateEnd h v hs.1
  | stepEnd v =>
    simp only [State.stands, Voice.stepOut, Bool.and_eq_true, beq_iff_eq] at hs
    exact stepOver h v hs.1
  | handoff v => exact handOver h v
  | release v =>
    simp only [State.stands, Bool.and_eq_true, beq_iff_eq] at hs
    exact State.Books.endToIdle h v ((h.voice_ok v).of_ending hs.1).2.1
  | deadline t => exact deadline h t
  | starve i => exact starveLimit h i
  | duck => exact State.Books.duckStep h
  | abandon => exact abandonFrame h hcap
  | silence => exact silence h
  | retransmit => exact retransmit h

theorem settle (hcap : 48 ≤ cap) (n : Nat) (h : s.Booked cap) : (s.settle n).Booked cap := by
  induction n generalizing s with
  | zero => exact h
  | succ n ih =>
    unfold State.settle
    split
    · rename_i e he
      exact ih (State.Books.chooseFrame (carry h hcap e (List.find?_some he)))
    · exact h

theorem act (h : s.Booked cap) {f : State → State} (hf : (f s).Booked cap) (e : s.act f = .next t) : t.Booked cap := by
  unfold State.act at e
  obtain rfl := Host.Outcome.next.inj e
  split
  · exact h
  · exact State.Books.chooseFrame hf

/-- Every command keeps the books. -/
theorem exec (h : s.Booked cap) (hcap : 48 ≤ cap) (c : Instr) (e : Machine.exec c s = .next t) : t.Booked cap := by
  have event : ∀ x, s.event x = .next t → t.Booked cap := by
    intro x hx
    refine act h ?_ hx
    unfold State.happen
    split
    · rename_i hs
      exact carry h hcap x hs
    · exact h
  cases hq : requestOf c with
  | some x =>
    obtain ⟨r, num, f⟩ := x
    rw [exec_request c s r num f hq] at e
    exact act h (takeRequest (abandonFrame h hcap) hcap r num f) e
  | none =>
    cases c with
    | powerOnReset st => obtain rfl := Host.Outcome.next.inj e; exact powerOn s st
    | pinReset st => obtain rfl := Host.Outcome.next.inj e; exact resetKept s .pin st
    | softReset st => exact act h (f := fun u => u.softReset st) (softReset h st) e
    | pinResetTaken => obtain rfl := Host.Outcome.next.inj e; exact State.Books.congr h rfl rfl rfl
    | frameDiscard => exact act h (discardFrame (abandonFrame h hcap) hcap _) e
    | replySent => exact act h (replySent h) e
    | reportFrameSent =>
      exact act h (State.Books.congr h (reportSent_sched s) (by rw [reportSent_alloc]) (reportSent_store s)) e
    | tickAdvance l => exact act h (f := fun u => u.tick l) (State.Books.advance (settle hcap _ h) l) e
    | outputSample => exact act h (sampleOutput h) e
    | blockUsedUp => exact act h (finishBlock h) e
    | noiseShift v =>
      exact act h (f := fun u => u.putVoice v (u.voice v).noiseShift)
        (State.Books.moveVoice h v (s.voice v).noiseShift_movesTo) e
    | byteReceived b => exact act h (f := fun u => u.byteIn b) (byteIn h hcap b) e
    | frameAbandon => exact event _ e
    | dueEvent => exact event _ e
    | waitDeadline => exact event _ e
    | allocationPass => exact event _ e
    | handoffComplete => exact event _ e
    | releaseComplete => exact event _ e
    | rateCountStep => exact event _ e
    | stepEnd => exact event _ e
    | gateRunsOut => exact event _ e
    | duckStep => exact event _ e
    | starveLimit => exact event _ e
    | internalBeatEdge => exact event _ e
    | syncEdge => exact event _ e
    | syncLoss => exact event _ e
    | silenceTimeout => exact event _ e
    | retransmissionTimer => exact event _ e
    | firingEvent => exact event _ e
    | _ => cases hq

/-- Every step keeps the books. -/
theorem step (h : s.Booked cap) (hcap : 48 ≤ cap) (e : Machine.step s = .next t) : t.Booked cap := by
  cases hq : s.pending with
  | nil =>
    rw [step_nil s hq] at e
    exact Host.Outcome.next.inj e ▸ h
  | cons c rest =>
    rw [step_cons s c rest hq] at e
    exact exec (State.Books.congr (t := { s with pending := rest }) h rfl rfl rfl) hcap c e

end State.Books

/-- Settles O60: the books, kept by every step, are the placing of the cues and the bound of the schedule. -/
theorem stepsKeepCuesPlaced : Obligations.StepsKeepCuesPlaced := by
  intro s t hp hl e
  exact (t.booked_iff 48).mp (State.Books.step ((s.booked_iff 48).mpr ⟨hp, hl⟩) le_rfl e)

end Sys2Proof.Machine
end

section
/-! The state after a reset (R25, R47, R67, R89, R107, R121, R141, R153, R171, R184), and the reading of a CUE.PLAY body. -/

namespace Sys2Proof.Machine

/-! ### Every block after a reset is sound -/

theorem PhraseSlot.empty_ok : PhraseSlot.empty.Ok :=
  ⟨fun _ => ⟨rfl, rfl⟩, fun h => absurd rfl h, rfl, Nat.zero_le _⟩

theorem PhraseStore.afterPowerOn_ok : PhraseStore.afterPowerOn.Ok := by
  refine ⟨?_, fun p hp => ?_, fun id => ?_⟩
  · have none_held : (Vector.replicate 32 PhraseSlot.empty).toList.flatMap (·.pages) = [] := by
      simp [PhraseSlot.empty]
    simp only [PhraseStore.afterPowerOn, none_held, List.append_nil]
    exact .refl _
  · have : p = PhraseSlot.empty := by simp [PhraseStore.afterPowerOn] at hp; exact hp
    exact this ▸ PhraseSlot.empty_ok
  · simp [PhraseStore.afterPowerOn, PhraseSlot.empty]

theorem defaultPeriods_ok : ∀ p ∈ defaultPeriods, 32 ≤ p ∧ p ≤ 65535 := by decide +kernel

theorem defaultPitchMap_ok : mapOk defaultPitchMap := by
  intro n
  right
  have hn : n.val < defaultPeriods.length := n.isLt
  have e : defaultPitchMap[n] = defaultPeriods[n.val] := by
    simp [defaultPitchMap, List.getD_eq_getElem?_getD, List.getElem?_eq_getElem hn]
  exact e ▸ defaultPeriods_ok _ (List.getElem_mem hn)

theorem StreamUnit.afterReset_ok : StreamUnit.afterReset.Ok := by
  refine ⟨?_, fun b _ => by simp [StreamUnit.afterReset], fun t ht => ?_, fun t0 _ h0 => by simp [StreamUnit.afterReset] at h0⟩
  · have none_held : (Vector.replicate 2 (none : Option OpenStream)).toList.flatMap filledOf = [] := by simp [filledOf]
    simp only [StreamUnit.afterReset, none_held, List.append_nil]
    exact .refl _
  · have : t = none := by simp [StreamUnit.afterReset] at ht; exact ht
    simp [this, filledOf]

theorem TimeBase.afterReset_ok : TimeBase.afterReset.Ok := by simp [TimeBase.Ok, TimeBase.afterReset]

theorem Mixer.afterReset_ok (straps : Straps) : (Mixer.afterReset straps).Ok := by simp [Mixer.Ok, Mixer.afterReset]

theorem Link.afterReset_ok (cause : ResetCause) (straps : Straps) : (Link.afterReset cause straps).Ok := by
  simp [Link.Ok, Link.afterReset]

theorem ReportUnit.afterReset_ok : ReportUnit.afterReset.Ok := by
  simp only [ReportUnit.Ok, ReportUnit.Numbered, ReportUnit.afterReset]
  exact ⟨by simp, by simp, by simp, ⟨0, by simp⟩, by simp, by simp⟩

/-- Settles O2: every block holds its reset values, and no cue is held. -/
theorem resetIsSound : Obligations.ResetIsSound := by
  have booked : State.reset.Booked 48 :=
    State.booked_of_empty rfl rfl Allocator.afterReset_voice PhraseStore.afterPowerOn_refs
  obtain ⟨placed, room⟩ := (State.booked_iff 48 _).mp booked
  exact ⟨⟨PhraseStore.afterPowerOn_ok, defaultPitchMap_ok, StreamUnit.afterReset_ok, TimeBase.afterReset_ok,
    Mixer.afterReset_ok _, Link.afterReset_ok _ _, ReportUnit.afterReset_ok⟩, placed, room, rfl⟩

/-! ### The resets -/

/-- The part after a reset: its blocks at their reset values, with no phrase reference counted. -/
structure State.Restarted (s : State) (cause : ResetCause) (t : State) : Prop where
  running : t.inReset = false
  pending : t.pending = s.pending
  sched : t.sched = Scheduler.afterReset
  alloc : t.alloc = Allocator.afterReset
  refs : ∀ id, (t.phrase id).refs = 0
  time : t.time = TimeBase.afterReset
  streams : t.streams = StreamUnit.afterReset
  triggers : t.triggers = TriggerUnit.afterReset
  reports : t.reports = ReportUnit.afterReset
  link : ∃ straps due, t.link = { Link.afterReset cause straps with strapsDue := due }

theorem State.powerOn_restarted (s : State) (straps : Straps) : s.Restarted .power (s.powerOn straps) :=
  ⟨rfl, rfl, rfl, rfl, PhraseStore.afterPowerOn_refs, rfl, rfl, rfl, rfl, straps, false, rfl⟩

theorem State.resetKept_restarted (s : State) (cause : ResetCause) (straps : Straps) :
    s.Restarted cause (s.resetKept cause straps) :=
  ⟨rfl, rfl, rfl, rfl, s.store.afterPin_refs, rfl, rfl, rfl, rfl, straps, false, rfl⟩

theorem State.softAtReplyEnd_restarted (s : State) : s.Restarted .soft s.softAtReplyEnd :=
  ⟨rfl, rfl, rfl, rfl, s.store.afterPin_refs, rfl, rfl, rfl, rfl, s.straps, true, rfl⟩

/-- After a reset there is nothing to send. -/
theorem State.Restarted.chooseFrame {s t : State} {cause : ResetCause} (h : s.Restarted cause t) : t.chooseFrame = t := by
  obtain ⟨straps, due, hl⟩ := h.link
  have hi : t.link.transmitter = .idle := by rw [hl]; rfl
  have hr : t.link.replies = [] := by rw [hl]; rfl
  have hs : t.link.session = .closed := by rw [hl]; rfl
  simp [State.chooseFrame, hi, hr, hs]

/-- Each of the three resets leaves the part restarted. -/
theorem exec_reset (s : State) (straps : Straps) (c : Instr) (cause : ResetCause)
    (h : (c = .powerOnReset straps ∧ cause = .power) ∨ (c = .pinReset straps ∧ cause = .pin) ∨
      ((c = .softReset straps ∨ c = .replySent) ∧ cause = .soft ∧ s.inReset = false ∧ s.link.sendingFull = true)) :
    ∃ t, exec c s = .next t ∧ s.Restarted cause t := by
  have acted : ∀ {f : State → State} {cause}, s.inReset = false → s.Restarted cause (f s) → s.act f = .next (f s) := by
    intro f cause hr hf
    simp only [State.act, hr, Bool.false_eq_true, if_false, hf.chooseFrame]
  obtain ⟨rfl, rfl⟩ | ⟨rfl, rfl⟩ | ⟨rfl | rfl, rfl, hr, hf⟩ := h
  · exact ⟨_, rfl, s.powerOn_restarted straps⟩
  · exact ⟨_, rfl, s.resetKept_restarted .pin straps⟩
  · have k : s.Restarted .soft (s.softReset straps) := by
      rw [State.softReset, if_pos hf]
      exact s.resetKept_restarted .soft straps
    exact ⟨_, acted (f := fun u => u.softReset straps) hr k, k⟩
  · have k : s.Restarted .soft s.replySent := by
      rw [State.replySent, if_pos hf]
      exact s.softAtReplyEnd_restarted
    exact ⟨_, acted hr k, k⟩

/-- Settles O3: the reset values of each block, read off the restarted part. -/
theorem resetsClearTheBlocks : Obligations.ResetsClearTheBlocks := by
  intro s straps c cause h
  obtain ⟨t, ht, hres⟩ := exec_reset s straps c cause h
  obtain ⟨running, pending, sched, alloc, refs, time, streams, triggers, reports, straps', due, link⟩ := hres
  refine ⟨t, ht, running, pending, ?_, fun v => ?_, ?_, refs, ?_, ?_, ?_, ?_, ?_⟩
  · rw [sched]; exact ⟨rfl, rfl, rfl⟩
  · rw [State.voice, alloc]; exact Allocator.afterReset_voice v
  · rw [alloc]; rfl
  · rw [time]; exact ⟨rfl, rfl, rfl, rfl, rfl, rfl, rfl, rfl, rfl, rfl, rfl, rfl, rfl, rfl, rfl, rfl⟩
  · refine ⟨fun i => ?_, ?_, ?_, fun b => ?_⟩
    · simp [State.stream, streams, StreamUnit.afterReset]
    · rw [streams]; exact .refl _
    · rw [State.freeCount, streams]; rfl
    · simp [streams, StreamUnit.afterReset]
  · rw [triggers]; exact ⟨fun i => by simp [TriggerUnit.afterReset], rfl, rfl⟩
  · rw [State.attn, reports]; exact ⟨rfl, rfl, rfl, rfl, by decide⟩
  · rw [link]; exact ⟨rfl, rfl, rfl, rfl, rfl, rfl, rfl, rfl, rfl, rfl, rfl, rfl⟩

/-! ### The cue record of a CUE.PLAY (R1, R2, R7, 11.6) -/

/-- The numbers 0 to 2 of a byte and the byte itself: a field of four codes is read by its number. -/
theorem byte_cases (b : Byte) :
    (b = 0 ∧ b.toNat = 0) ∨ (b = 1 ∧ b.toNat = 1) ∨ (b = 2 ∧ b.toNat = 2) ∨
      (b ≠ 0 ∧ b ≠ 1 ∧ b ≠ 2 ∧ ∃ n, b.toNat = n + 3) := by
  by_cases h0 : b = 0
  · exact .inl ⟨h0, by rw [h0]; rfl⟩
  by_cases h1 : b = 1
  · exact .inr (.inl ⟨h1, by rw [h1]; rfl⟩)
  by_cases h2 : b = 2
  · exact .inr (.inr (.inl ⟨h2, by rw [h2]; rfl⟩))
  · refine .inr (.inr (.inr ⟨h0, h1, h2, b.toNat - 3, ?_⟩))
    bv_omega

theorem Shape.ofCode_eq (b : Byte) :
    Shape.ofCode b = if b = 0 then .square else if b = 1 then .pulse25 else if b = 2 then .pulse12 else .noise := by
  obtain ⟨h, hn⟩ | ⟨h, hn⟩ | ⟨h, hn⟩ | ⟨h0, h1, h2, n, hn⟩ := byte_cases b
  · simp [Shape.ofCode, h]
  · simp [Shape.ofCode, h]
  · simp [Shape.ofCode, h]
  · simp only [Shape.ofCode, hn, if_neg h0, if_neg h1, if_neg h2]

theorem readSource_eq (f : List Byte) (o : Nat) :
    readSource f o =
      if u8 f (o + 2) = 0 then .phrase (phraseOf (u8 f (o + 3)))
      else if u8 f (o + 2) = 1 then .tone (noteOf (u8 f (o + 3))) (u16 f (o + 4)).toNat (Shape.ofCode (u8 f (o + 6)))
      else if u8 f (o + 2) = 2 then .noise (noteOf (u8 f (o + 3))) (u16 f (o + 4)).toNat
      else .stream (u8 f (o + 3)) := by
  obtain ⟨h, hn⟩ | ⟨h, hn⟩ | ⟨h, hn⟩ | ⟨h0, h1, h2, n, hn⟩ := byte_cases (u8 f (o + 2))
  · simp [readSource, h]
  · simp [readSource, h]
  · simp [readSource, h]
  · simp only [readSource, hn, if_neg h0, if_neg h1, if_neg h2]

theorem readSource_pitched (f : List Byte) (o : Nat) :
    (readSource f o).pitched = decide (u8 f (o + 2) = 1 ∨ u8 f (o + 2) = 2) := by
  rw [readSource_eq]
  obtain ⟨h, -⟩ | ⟨h, -⟩ | ⟨h, -⟩ | ⟨h0, h1, h2, -⟩ := byte_cases (u8 f (o + 2))
  · simp [h, Source.pitched]
  · simp [h, Source.pitched]
  · simp [h, Source.pitched]
  · simp only [h0, h1, h2, if_false, Source.pitched, or_self, decide_false]

theorem readSource_isStream (f : List Byte) (o : Nat) :
    (readSource f o).isStream = decide (u8 f (o + 2) ≠ 0 ∧ u8 f (o + 2) ≠ 1 ∧ u8 f (o + 2) ≠ 2) := by
  rw [readSource_eq]
  obtain ⟨h, -⟩ | ⟨h, -⟩ | ⟨h, -⟩ | ⟨h0, h1, h2, -⟩ := byte_cases (u8 f (o + 2))
  · simp [h, Source.isStream]
  · simp [h, Source.isStream]
  · simp [h, Source.isStream]
  · simp only [h0, h1, h2, if_false, Source.isStream, ne_eq, not_false_eq_true, and_self, decide_true]

theorem readStart_eq (f : List Byte) (o : Nat) :
    readStart f o =
      if u8 f (o + 10) = 0 then .now
      else if u8 f (o + 10) = 1 then .atTick (u32 f (o + 11))
      else .after (u32 f (o + 11)).toNat := by
  obtain ⟨h, hn⟩ | ⟨h, hn⟩ | ⟨h, hn⟩ | ⟨h0, h1, h2, n, hn⟩ := byte_cases (u8 f (o + 10))
  · simp [readStart, h]
  · simp [readStart, h]
  · simp [readStart, h]
  · simp only [readStart, hn, if_neg h0, if_neg h1]

theorem readQuantize_eq (f : List Byte) (o : Nat) :
    readQuantize f o = if u8 f (o + 15) = 0 then .off else if u8 f (o + 15) = 1 then .beat else .bar := by
  obtain ⟨h, hn⟩ | ⟨h, hn⟩ | ⟨h, hn⟩ | ⟨h0, h1, h2, n, hn⟩ := byte_cases (u8 f (o + 15))
  · simp [readQuantize, h]
  · simp [readQuantize, h]
  · simp [readQuantize, h]
  · simp only [readQuantize, hn, if_neg h0, if_neg h1]

/-- The due tick by the kind of start (R7). -/
theorem dueTick_eq (start : Start) (a : Tick) :
    dueTick start a =
      match start with
      | .now => a
      | .after d => a + BitVec.ofNat 32 d
      | .atTick x => if (a - x).toNat < 2 ^ 31 then a else x := by
  cases start with
  | atTick x => simp only [dueTick, reached, decide_eq_true_eq]
  | _ => rfl

/-- Settles O21: each field is read at its place, and the record keeps what its source allows. -/
theorem cueRecordIsBuilt : Obligations.CueRecordIsBuilt := by
  intro s f
  dsimp only
  refine ⟨?_, rfl, rfl, rfl, ?_⟩
  · rw [← Shape.ofCode_eq (u8 f 6)]
    exact readSource_eq f 0
  · have pitched : (readTemplate f 0).source.pitched = decide (u8 f 2 = 1 ∨ u8 f 2 = 2) := readSource_pitched f 0
    have stream : (readTemplate f 0).source.isStream = decide (u8 f 2 ≠ 0 ∧ u8 f 2 ≠ 1 ∧ u8 f 2 ≠ 2) :=
      readSource_isStream f 0
    have start : (readTemplate f 0).start = _ := readStart_eq f 0
    have quantize : (readTemplate f 0).quantize = _ := readQuantize_eq f 0
    simp only [State.newCue, Template.cue, dueTick_eq, pitched, stream, start, quantize]
    rfl

end Sys2Proof.Machine
end

section
/-! The schedule and its rules: insertion in order, due events and deadlines, acceptance and refusal of a CUE.PLAY, and removal
without sounding (R5 to R17). -/

namespace Sys2Proof.Machine

/-! ### Insertion in order of due tick (R6) -/

/-- An entry before which a new cue with this due tick goes. -/
theorem goesBefore_iff (due : Tick) (e : Entry) :
    (e.state = .scheduled && earlier due e.cue.due) = true ↔
      e.state = .scheduled ∧ e.cue.due - due ≠ 0 ∧ (e.cue.due - due).toNat < 2 ^ 31 := by
  simp only [earlier, Bool.and_eq_true, decide_eq_true_eq, bne_iff_ne]

theorem insertEntry_before (new e : Entry) (l1 l2 : List Entry)
    (he : (e.state = .scheduled && earlier new.cue.due e.cue.due) = true)
    (h1 : ∀ x ∈ l1, ¬(x.state = .scheduled && earlier new.cue.due x.cue.due) = true) :
    insertEntry new (l1 ++ e :: l2) = l1 ++ new :: e :: l2 := by
  induction l1 with
  | nil => rw [List.nil_append, insertEntry, if_pos he, List.nil_append]
  | cons x l1 ih =>
    rw [List.cons_append, insertEntry, if_neg (h1 x List.mem_cons_self),
      ih fun y hy => h1 y (List.mem_cons_of_mem _ hy), List.cons_append]

theorem insertEntry_end (new : Entry) (l : List Entry)
    (h : ∀ x ∈ l, ¬(x.state = .scheduled && earlier new.cue.due x.cue.due) = true) : insertEntry new l = l ++ [new] := by
  induction l with
  | nil => rfl
  | cons x l ih =>
    rw [insertEntry, if_neg (h x List.mem_cons_self), ih fun y hy => h y (List.mem_cons_of_mem _ hy), List.cons_append]

/-- Of two ticks on one side of `a`, the later one by R106 is the one farther from `a`. -/
theorem later_iff_farther (x y a : Tick) (hx : (x - a).toNat < 2 ^ 31) (hy : (y - a).toNat < 2 ^ 31) :
    (y - x ≠ 0 ∧ (y - x).toNat < 2 ^ 31) ↔ (x - a).toNat < (y - a).toNat := by
  constructor
  · rintro ⟨hne, hlt⟩
    have : y ≠ x := fun h => hne (by rw [h]; exact BitVec.sub_self x)
    bv_omega
  · intro h
    constructor
    · intro h0
      bv_omega
    · bv_omega

theorem insertEntry_sorted (new : Entry) (a : Tick) (l : List Entry)
    (hd : ∀ e ∈ new :: l, (e.cue.due - a).toNat < 2 ^ 31)
    (hn : ∀ e ∈ l, e.state ≠ .scheduled → (e.cue.due - a).toNat ≤ (new.cue.due - a).toNat)
    (hs : l.Pairwise fun x y => (x.cue.due - a).toNat ≤ (y.cue.due - a).toNat) :
    (insertEntry new l).Pairwise fun x y => (x.cue.due - a).toNat ≤ (y.cue.due - a).toNat := by
  induction l with
  | nil => exact List.pairwise_singleton _ _
  | cons e l ih =>
    obtain ⟨hel, hl⟩ := List.pairwise_cons.mp hs
    have hnew := hd new List.mem_cons_self
    have he := hd e (List.mem_cons_of_mem _ List.mem_cons_self)
    unfold insertEntry
    split
    · rename_i h
      have lt := (later_iff_farther _ _ a hnew he).mp ((goesBefore_iff _ e).mp h).2
      refine List.pairwise_cons.mpr ⟨fun y hy => ?_, hs⟩
      rcases List.mem_cons.mp hy with rfl | hy
      · exact lt.le
      · exact lt.le.trans (hel y hy)
    · rename_i h
      have le : (e.cue.due - a).toNat ≤ (new.cue.due - a).toNat := by
        by_cases hsch : e.state = .scheduled
        · by_contra hlt
          exact h ((goesBefore_iff _ e).mpr ⟨hsch, (later_iff_farther _ _ a hnew he).mpr (by omega)⟩)
        · exact hn e List.mem_cons_self hsch
      refine List.pairwise_cons.mpr ⟨fun y hy => ?_, ih (fun x hx => ?_) (fun x hx => hn x (List.mem_cons_of_mem _ hx)) hl⟩
      · rcases List.mem_cons.mp ((insertEntry_perm new l).mem_iff.mp hy) with rfl | hy
        · exact le
        · exact hel y hy
      · rcases List.mem_cons.mp hx with rfl | hx
        · exact hnew
        · exact hd x (List.mem_cons_of_mem _ (List.mem_cons_of_mem _ hx))

/-- Settles O22. -/
theorem cuesAreInsertedInOrder : Obligations.CuesAreInsertedInOrder := by
  intro new l
  simp only [← goesBefore_iff]
  refine ⟨fun l1 e l2 hl he h1 => ?_, insertEntry_end new l, fun a hd hn hs => insertEntry_sorted new a l hd hn hs⟩
  rw [hl]
  exact insertEntry_before new e l1 l2 he h1

/-! ### Entries that become due or are released (R8, R10, R12) -/

/-- The deadline that a cue entering WAITING at tick w takes from its window (R12). -/
theorem Entry.becomeDue_eq (e : Entry) (w : Tick) :
    e.becomeDue w =
      if e.cue.quantize = .off then
        { cue :=
            { e.cue with
              deadline :=
                if e.cue.window = 0 ∨ e.cue.window = 65535 then none else some (w + BitVec.ofNat 32 e.cue.window) }
          state := .waiting }
      else { e with state := .aligning } := by
  unfold Entry.becomeDue
  split
  · rename_i h; rw [if_pos h]; rfl
  · rename_i h; rw [if_neg (by rw [h]; decide)]
  · rename_i h; rw [if_neg (by rw [h]; decide)]

theorem Entry.becomeDue_waits (e : Entry) (w : Tick) : ((e.becomeDue w).state == .waiting) = (e.cue.quantize == .off) := by
  rw [Entry.becomeDue_eq]
  cases h : e.cue.quantize <;> simp

/-- A move of entries, written out: the entries in their places, and one pass asked if any moved to WAITING. -/
theorem State.moveEntries_eq (s : State) (takes waits : Entry → Bool) (move move' : Entry → Entry)
    (hw : ∀ e, (takes e && (move e).state == .waiting) = waits e) (hm : ∀ e, takes e = true → move e = move' e) :
    s.moveEntries takes move =
      { s with
        sched := { s.sched with entries := s.sched.entries.map fun e => if takes e then move' e else e }
        alloc := { s.alloc with passes := s.alloc.passes + if s.sched.entries.any waits then 1 else 0 } } := by
  have hmap : (s.sched.entries.map fun e => if takes e then move e else e) =
      s.sched.entries.map fun e => if takes e then move' e else e :=
    List.map_congr_left fun e _ => by
      split
      · rename_i h; exact hm e h
      · rfl
  have hany : (fun e => takes e && (move e).state == .waiting) = waits := funext hw
  unfold State.moveEntries
  simp only [hmap, hany]
  split
  · rfl
  · rfl

/-- Due events, written out (R8, R12). -/
theorem State.moveEntries_becomeDue (s : State) (takes takes' : Entry → Bool) (h : ∀ e, takes e = takes' e) :
    (s.moveEntries takes fun e => e.becomeDue s.now) =
      { s with
        sched :=
          { s.sched with
            entries :=
              s.sched.entries.map fun e =>
                if takes' e then
                  (if e.cue.quantize = .off then
                    { cue :=
                        { e.cue with
                          deadline :=
                            if e.cue.window = 0 ∨ e.cue.window = 65535 then none
                            else some (s.time.tick + BitVec.ofNat 32 e.cue.window) }
                      state := .waiting }
                  else { e with state := .aligning })
                else e }
        alloc :=
          { s.alloc with
            passes := s.alloc.passes + if s.sched.entries.any fun e => takes' e && e.cue.quantize == .off then 1 else 0 } } := by
  obtain rfl : takes = takes' := funext h
  exact s.moveEntries_eq takes _ _ _ (fun e => by rw [Entry.becomeDue_waits]) fun e _ => e.becomeDue_eq _

theorem State.isDue_eq (s : State) (e : Entry) :
    s.isDue e = (e.state == .scheduled && decide ((s.time.tick - e.cue.due).toNat < 2 ^ 31)) := rfl

theorem State.dueEvent_idle (s : State) (h : s.stands .due = false) : s.dueEvent = s := by
  have none_due : ∀ e ∈ s.sched.entries, s.isDue e = false := by
    simpa only [State.stands, List.any_eq_false, Bool.not_eq_true] using h
  have hmap : (s.sched.entries.map fun e => if s.isDue e then e.becomeDue s.now else e) = s.sched.entries := by
    refine (List.map_congr_left fun e he => ?_).trans (List.map_id _)
    simp [none_due e he]
  have hany : (s.sched.entries.any fun e => s.isDue e && (e.becomeDue s.now).state == .waiting) = false :=
    List.any_eq_false.mpr fun e he => by simp [none_due e he]
  simp only [State.dueEvent, State.moveEntries, hmap, hany]
  rfl

/-- DUE_EVENT, whether or not an entry is due. -/
theorem exec_dueEvent (s : State) (hr : s.inReset = false) : exec .dueEvent s = .next s.dueEvent.chooseFrame := by
  have e : exec .dueEvent s = s.event .due := rfl
  cases h : s.stands .due with
  | true => rw [e, event_stands s _ hr h]; rfl
  | false => rw [e, event_idle s _ hr h, s.dueEvent_idle h]

/-! ### One entry among others -/

theorem find_entry {l1 l2 : List Entry} {e : Entry} (h : ∀ x ∈ l1 ++ l2, x.cue.tag ≠ e.cue.tag) :
    (l1 ++ e :: l2).find? (fun x => x.cue.tag == e.cue.tag) = some e := by
  rw [List.find?_append, List.find?_eq_none.mpr fun x hx => by simpa using h x (List.mem_append_left _ hx)]
  simp

theorem drop_entry {l1 l2 : List Entry} {e : Entry} (h : ∀ x ∈ l1 ++ l2, x.cue.tag ≠ e.cue.tag) :
    (l1 ++ e :: l2).filter (fun x => x.cue.tag != e.cue.tag) = l1 ++ l2 := by
  rw [List.filter_append, List.filter_cons_of_neg (by simp), ← List.filter_append]
  exact List.filter_eq_self.mpr fun x hx => by simpa using h x hx

/-- Settles O33. -/
theorem dueEventsAndDeadlines : Obligations.DueEventsAndDeadlines := by
  refine ⟨fun s hr => ?_, fun s l1 l2 e hr hs hu => ?_⟩
  · rw [exec_dueEvent s hr, State.dueEvent, s.moveEntries_becomeDue _ _ s.isDue_eq]
  · have found : (s.sched.entries.find? fun x => x.cue.tag == e.cue.tag) = some e := by rw [hs]; exact find_entry hu
    have stands : s.stands (.deadline e.cue.tag) = s.late e := by simp only [State.stands, State.lateTag, found]
    have run : exec (.waitDeadline e.cue.tag) s = s.event (.deadline e.cue.tag) := rfl
    refine ⟨fun d hw hd ht => ?_, fun h => ?_⟩
    · have late : s.late e = true := by
        simp only [State.late, hw, hd, Option.any_some, beq_self_eq_true, Bool.true_and, reached, decide_eq_true_eq]
        exact ht
      rw [run, event_stands s _ hr (stands.trans late)]
      simp only [State.carry, State.deadline, found, late, if_true]
    · have late : s.late e = false := by
        rcases h with h | h
        · simp [State.late, h]
        · simp [State.late, h]
      rw [run, event_idle s _ hr (stands.trans late)]

/-! ### CUE.PLAY (R16, R17) -/

/-- A CUE.PLAY that passes the common checks. -/
theorem exec_cuePlay {s : State} {num : Byte} {f : List Byte} (h : s.Passes .cuePlay num f) :
    exec (.cuePlay num f) s = .next (State.answered (ownPlay f s.heard).1 .cuePlay num f (ownPlay f s.heard).2) :=
  request_passes s .cuePlay num f h

/-- What a handed over frame does to the link is done once. -/
theorem answered_congr {t u : State} (h : t.heard = u.heard) (r : Request) (num : Byte) (f : List Byte) (a : Answer) :
    State.answered t r num f a = State.answered u r num f a := by
  simp only [State.answered, h]

theorem ownPlay_refused {s : State} {f : List Byte} {a : Answer} (h : s.playRefusal (readTemplate f 0) = some a) :
    ownPlay f s = (s, a) := by
  simp only [ownPlay, h]

theorem ownPlay_accepted {s : State} {f : List Byte} (h : s.playRefusal (readTemplate f 0) = none) :
    ownPlay f s =
      ((s.accept (readTemplate f 0)).dueOwn s.sched.counter,
        answerOk (be32 s.sched.counter ++ be32 (s.newCue (readTemplate f 0)).due)) := by
  simp only [ownPlay, h]
  rfl

/-- A cue with its source's own hold taken. -/
theorem State.playRefusal_live {s : State} {t : Template} (h : t.tag ∈ s.sched.live) :
    s.playRefusal t = some (refuse .tagInUse) := by
  rw [State.playRefusal, if_pos (by simpa [State.isLive] using h)]

/-- The room of the schedule, tested last (R16). -/
def State.roomRefusal (s : State) : Option Answer :=
  if s.sched.entries.length < Config.scheduleEntries then none else some (refuse .scheduleFull)

/-- R16 for a PHRASE cue whose tag is not live. -/
theorem State.playRefusal_phrase {s : State} {t : Template} {id : PhraseId} (hl : t.tag ∉ s.sched.live)
    (hs : t.source = .phrase id) :
    s.playRefusal t =
      if t.rates.isSome then some (badParam 15)
      else if (s.phrase id).state = .ready then s.roomRefusal
      else some (refuse .notReady) := by
  have hl' : s.isLive t.tag = false := by simpa [State.isLive] using hl
  simp only [State.playRefusal, hl', hs, Source.pitched, Source.isStream, Bool.false_eq_true, if_false, Bool.not_false,
    Bool.true_and, Bool.false_and, State.phraseReady, beq_iff_eq, State.roomRefusal]
  by_cases hd : (s.phrase id).state = .ready
  · simp only [if_pos hd]
  · simp only [if_neg hd]

/-- R16 for a STREAM cue whose tag is not live. -/
theorem State.playRefusal_stream {s : State} {t : Template} {id : Byte} (hl : t.tag ∉ s.sched.live)
    (hs : t.source = .stream id) :
    s.playRefusal t =
      if t.rates.isSome then some (badParam 15)
      else if t.repeats ≠ 1 then some (badParam 13)
      else
        match s.openSlot id with
        | none => some (refuse .streamState)
        | some i => if (s.stream i).any fun x => x.bound.isSome then some (refuse .streamBound) else s.roomRefusal := by
  have hl' : s.isLive t.tag = false := by simpa [State.isLive] using hl
  simp only [State.playRefusal, hl', hs, Source.pitched, Source.isStream, Bool.false_eq_true, if_false, Bool.not_false,
    Bool.true_and, bne_iff_ne, State.roomRefusal]
  cases s.openSlot id with
  | none => rfl
  | some i =>
    by_cases hb : ((s.stream i).any fun x => x.bound.isSome) = true
    · simp only [if_pos hb]
    · simp only [if_neg hb]

/-- R16 for a TONE or NOISE cue whose tag is not live. -/
theorem State.playRefusal_pitched {s : State} {t : Template} (hl : t.tag ∉ s.sched.live)
    (hp : ∀ id, t.source ≠ .phrase id) (hst : ∀ id, t.source ≠ .stream id) : s.playRefusal t = s.roomRefusal := by
  have hl' : s.isLive t.tag = false := by simpa [State.isLive] using hl
  cases hs : t.source with
  | phrase id => exact absurd hs (hp id)
  | stream id => exact absurd hs (hst id)
  | tone n d sh =>
    simp only [State.playRefusal, hl', hs, Source.pitched, Source.isStream, Bool.false_eq_true, if_false, Bool.not_true,
      Bool.false_and, State.roomRefusal]
  | noise n d =>
    simp only [State.playRefusal, hl', hs, Source.pitched, Source.isStream, Bool.false_eq_true, if_false, Bool.not_true,
      Bool.false_and, State.roomRefusal]

/-- Settles O24. -/
theorem cuePlayIsRefused : Obligations.CuePlayIsRefused := by
  intro s num f h
  have refused : ∀ {a}, s.playRefusal (readTemplate f 0) = some a →
      exec (.cuePlay num f) s = .next (State.answered s .cuePlay num f a) := by
    intro a ha
    rw [exec_cuePlay h, ownPlay_refused (s := s.heard) ha]
    rfl
  have full : 48 ≤ s.sched.entries.length → s.roomRefusal = some (refuse .scheduleFull) := fun hn => by
    exact if_neg (Nat.not_lt.mpr hn)
  dsimp only
  refine ⟨fun hl => refused (State.playRefusal_live hl), fun hl => ⟨fun id hs => ?_, fun id hs => ?_, fun hp hst hn => ?_⟩⟩
  · have k := State.playRefusal_phrase hl hs
    refine ⟨fun hr => refused ?_, fun hr hn => refused ?_, fun hr hd hn => refused ?_⟩
    · rw [k, if_pos (Option.isSome_iff_ne_none.mpr hr)]; rfl
    · rw [k, hr, if_neg hn]; rfl
    · rw [k, hr, if_pos hd]; exact full hn
  · have k := State.playRefusal_stream hl hs
    refine ⟨fun hr => refused ?_, fun hr hn => refused ?_, fun hr h1 ho => refused ?_, fun i x hr h1 ho hx =>
      ⟨fun hb => refused ?_, fun hb hn => refused ?_⟩⟩
    · rw [k, if_pos (Option.isSome_iff_ne_none.mpr hr)]; rfl
    · rw [k, hr, if_pos hn]; rfl
    · rw [k, hr, if_neg (not_not.mpr h1), ho]; rfl
    · rw [k, hr, if_neg (not_not.mpr h1), ho]
      simp only [hx, Option.any_some, Option.isSome_iff_ne_none.mpr hb]
      rfl
    · rw [k, hr, if_neg (not_not.mpr h1), ho]
      simp only [hx, Option.any_some, hb, full hn]
      rfl
  · exact refused ((State.playRefusal_pitched hl hp hst).trans (full hn))

end Sys2Proof.Machine
end

section
/-! Acceptance of a CUE.PLAY and removal without sounding, written out (R15, R17, R39). -/

namespace Sys2Proof.Machine

/-- The due event of its own of an accepted cue, written out (R8, R12). -/
theorem State.dueOwn_eq (s : State) (n : BitVec 32) :
    s.dueOwn n =
      { s with
        sched :=
          { s.sched with
            entries :=
              s.sched.entries.map fun e =>
                if e.state == .scheduled && e.cue.acceptance == n &&
                    decide ((s.time.tick - e.cue.due).toNat < 2 ^ 31) then
                  (if e.cue.quantize = .off then
                    { cue :=
                        { e.cue with
                          deadline :=
                            if e.cue.window = 0 ∨ e.cue.window = 65535 then none
                            else some (s.time.tick + BitVec.ofNat 32 e.cue.window) }
                      state := .waiting }
                  else { e with state := .aligning })
                else e }
        alloc :=
          { s.alloc with
            passes :=
              s.alloc.passes +
                if s.sched.entries.any fun e =>
                    e.state == .scheduled && e.cue.acceptance == n &&
                      decide ((s.time.tick - e.cue.due).toNat < 2 ^ 31) && e.cue.quantize == .off then 1
                else 0 } } :=
  s.moveEntries_becomeDue _ _ fun e => by rw [s.isDue_eq, Bool.and_right_comm]

/-- Settles O23. -/
theorem cuePlayIsAccepted : Obligations.CuePlayIsAccepted := by
  intro s num f h
  dsimp only
  intro hl hn hphrase hstream
  have room : s.roomRefusal = none := if_pos hn
  have accepted : s.heard.playRefusal (readTemplate f 0) = none := by
    change s.playRefusal (readTemplate f 0) = none
    cases hs : (readTemplate f 0).source with
    | phrase id =>
      obtain ⟨hr, hd⟩ := hphrase id hs
      rw [State.playRefusal_phrase hl hs, hr, if_pos hd]
      exact room
    | stream id =>
      obtain ⟨hr, h1, i, x, ho, hx, hb⟩ := hstream id hs
      rw [State.playRefusal_stream hl hs, hr, if_neg (not_not.mpr h1), ho]
      simp only [hx, Option.any_some, hb, room]
      rfl
    | tone n d sh => rw [State.playRefusal_pitched hl (by simp [hs]) (by simp [hs]), room]
    | noise n d => rw [State.playRefusal_pitched hl (by simp [hs]) (by simp [hs]), room]
  rw [exec_cuePlay h, ownPlay_accepted accepted]
  refine congrArg Host.Outcome.next (answered_congr ?_ _ _ _ _)
  dsimp only
  rw [State.dueOwn_eq, State.accept_eq, State.holdSource, State.newCue_source]
  cases hs : (readTemplate f 0).source with
  | phrase id => rfl
  | stream id =>
    obtain ⟨-, -, i, x, ho, hx, -⟩ := hstream id hs
    have ho' : (s.heard.entered (readTemplate f 0)).openSlot id = some i := ho
    simp only [State.bind, ho', ho]
    rfl
  | tone n d sh => rfl
  | noise n d => rfl

/-! ### Removal without sounding (R15, R39) -/

/-- What is left of the live-tag set, in the words of the statements. -/
theorem dropTag_live (s : State) (tag : Tag) :
    (s.dropTag tag).sched.live = s.sched.live.filter fun x => decide (x ≠ tag) := by
  refine List.filter_congr fun x _ => ?_
  rw [Bool.eq_iff_iff, bne_iff_ne, decide_eq_true_eq]

/-- A voice record that leaves the duck target as it is carries nothing with it in the mixer (R100). -/
theorem State.putVoice_plain (s : State) (v : VoiceId) (r : Voice) (h : v = streamVoice →
    Machine.duckTarget s.mixer.duckDepth r = Machine.duckTarget s.mixer.duckDepth (s.voice v)) :
    s.putVoice v r = { s with alloc := { s.alloc with voices := s.alloc.voices.set v r } } := by
  have same : State.duckTarget { s with alloc := { s.alloc with voices := s.alloc.voices.set v r } } = s.duckTarget := by
    by_cases e : v = streamVoice
    · subst e
      simpa [State.duckTarget, State.voice] using h rfl
    · have : (s.alloc.voices.set v r)[streamVoice] = s.alloc.voices[streamVoice] :=
        Vector.getElem_set_ne _ _ fun e' => e (Fin.ext e')
      simp only [State.duckTarget, State.voice, this]
  rw [State.putVoice, State.followDuck, if_pos same]

/-- A voice that is not ACTIVE calls for no ducking (R100). -/
theorem duckTarget_of_not_active {depth : Nat} {r : Voice} (h : r.state ≠ .active) : duckTarget depth r = 0 := by
  unfold duckTarget
  split
  · rename_i k hs hk
    exact absurd hs h
  · rfl

/-- What a retired cue leaves: the report, the live-tag set, and its source released (R15). -/
theorem State.retire_eq (s : State) (c : Cue) (reason : EndReason) (voice : Option VoiceId) :
    s.retire c reason voice =
      (match c.source with
        | .phrase id =>
          { s with
            sched := { s.sched with live := s.sched.live.filter fun x => decide (x ≠ c.tag) }
            reports := s.reports.offer (.cueEnded c.tag reason voice) s.time.tick
            store := { s.store with slots := s.store.slots.set id { s.phrase id with refs := (s.phrase id).refs - 1 } } }
        | .stream _ =>
          (match s.boundSlot c.tag with
            | some i =>
              State.closeStream
                { s with
                  sched := { s.sched with live := s.sched.live.filter fun x => decide (x ≠ c.tag) }
                  reports := s.reports.offer (.cueEnded c.tag reason voice) s.time.tick } i
            | none =>
              { s with
                sched := { s.sched with live := s.sched.live.filter fun x => decide (x ≠ c.tag) }
                reports := s.reports.offer (.cueEnded c.tag reason voice) s.time.tick })
        | _ =>
          { s with
            sched := { s.sched with live := s.sched.live.filter fun x => decide (x ≠ c.tag) }
            reports := s.reports.offer (.cueEnded c.tag reason voice) s.time.tick }) := by
  have left : (s.offer (.cueEnded c.tag reason voice)).dropTag c.tag =
      { s with
        sched := { s.sched with live := s.sched.live.filter fun x => decide (x ≠ c.tag) }
        reports := s.reports.offer (.cueEnded c.tag reason voice) s.time.tick } := by
    rw [← dropTag_live]
    rfl
  rw [State.retire, left, State.releaseSource]
  cases c.source with
  | phrase id => rfl
  | tone n d sh => rfl
  | noise n d => rfl
  | stream id =>
    have slot : State.boundSlot
        { s with
          sched := { s.sched with live := s.sched.live.filter fun x => decide (x ≠ c.tag) }
          reports := s.reports.offer (.cueEnded c.tag reason voice) s.time.tick } c.tag = s.boundSlot c.tag := rfl
    simp only [slot] <;> rfl

/-- Settles O25. -/
theorem removalWithoutSounding : Obligations.RemovalWithoutSounding := by
  intro s reason
  refine ⟨fun l1 l2 e hs hu => ?_, fun v c hv hc => ?_⟩
  · have found : (s.sched.entries.find? fun x => x.cue.tag == e.cue.tag) = some e := by rw [hs]; exact find_entry hu
    have dropped : s.dropEntry e.cue.tag = { s with sched := { s.sched with entries := l1 ++ l2 } } := by
      rw [State.dropEntry, hs, drop_entry hu]
    simp only [State.removeEntry, found, dropped, State.retire_eq]
    cases e.cue.source <;> rfl
  · have put : s.putVoice v { s.voice v with state := .ending, incoming := none } =
        { s with alloc := { s.alloc with
            voices := s.alloc.voices.set v { s.voice v with state := .ending, incoming := none } } } :=
      s.putVoice_plain v _ fun _ =>
        (duckTarget_of_not_active (fun h => by cases h)).trans (duckTarget_of_not_active (by rw [hv]; decide)).symm
    simp only [State.removeIncoming, hc, put, State.retire_eq]
    cases c.source <;> rfl

end Sys2Proof.Machine
end

section
/-! The place of a live cue, and the requests that name a cue by its tag: CUE.STOP, CUE.CUT, CUE.ADJUST and CUE.QUERY (R3, R4,
R18 to R24). -/

namespace Sys2Proof.Machine

/-! ### A tag is held in one place (R4) -/

theorem State.TagsOk.claims_le {s : State} (h : s.TagsOk) (t : Tag) : s.claims (.tag t) ≤ 1 := by
  rw [← s.count_heldTags, List.perm_iff_count.mp h.2]
  exact List.nodup_iff_count_le_one.mp h.1 t

theorem Cue.one_le_claims {c : Cue} {t : Tag} (h : c.tag = t) : 1 ≤ c.claims (.tag t) := by simp [Cue.claims, h]

theorem entry_unique {l : List Entry} {t : Tag} (h : (l.map fun x => x.cue.claims (.tag t)).sum ≤ 1) {e e' : Entry}
    (he : e ∈ l) (he' : e' ∈ l) (ht : e.cue.tag = t) (ht' : e'.cue.tag = t) : e = e' := by
  have above : ∀ {l : List Entry} {x : Entry}, x ∈ l → x.cue.tag = t → 1 ≤ (l.map fun x => x.cue.claims (.tag t)).sum :=
    fun hx hxt => (Cue.one_le_claims hxt).trans
      (List.single_le_sum (fun _ _ => Nat.zero_le _) _ (List.mem_map_of_mem (f := fun x => x.cue.claims (.tag t)) hx))
  induction l with
  | nil => cases he
  | cons x l ih =>
    rw [List.map_cons, List.sum_cons] at h
    rcases List.mem_cons.mp he with rfl | he1 <;> rcases List.mem_cons.mp he' with rfl | he1'
    · rfl
    · have := above he1' ht'
      have := Cue.one_le_claims ht
      omega
    · have := above he1 ht
      have := Cue.one_le_claims ht'
      omega
    · exact ih (by omega) he1 he1'

/-- What the place of a tag claims of it: an entry in the schedule, any other place on its voice. -/
theorem State.HeldAt.voice_claims {s : State} {tag : Tag} {v : VoiceId} {p : Place} (h : s.HeldAt tag p)
    (hp : (∃ c, p = .incoming v c) ∨ ∃ k, p = .current v k) : 1 ≤ (s.voice v).claims (.tag tag) := by
  rcases hp with ⟨c, rfl⟩ | ⟨k, rfl⟩
  · have := Cue.one_le_claims h.2
    simp only [Voice.claims, h.1, incomingClaims_some]
    omega
  · have := Cue.one_le_claims h.2
    simp only [Voice.claims, h.1, currentClaims_some]
    omega

theorem State.HeldAt.entries_claims {s : State} {tag : Tag} {e : Entry} (h : s.HeldAt tag (.entry e)) :
    1 ≤ (s.sched.entries.map fun e => e.cue.claims (.tag tag)).sum :=
  (Cue.one_le_claims h.2).trans
    (List.single_le_sum (fun _ _ => Nat.zero_le _) _ (List.mem_map_of_mem (f := fun e => e.cue.claims (.tag tag)) h.1))

theorem State.entries_add_voice_claims_le (s : State) (v : VoiceId) (a : Account) :
    (s.sched.entries.map fun e => e.cue.claims a).sum + (s.voice v).claims a ≤ s.claims a :=
  Nat.add_le_add_left (le_sum_allVoices (fun v => (s.voice v).claims a) v) _

theorem State.voice_add_voice_claims_le (s : State) {u v : VoiceId} (h : u ≠ v) (a : Account) :
    (s.voice u).claims a + (s.voice v).claims a ≤ s.claims a :=
  (add_le_sum_allVoices (fun v => (s.voice v).claims a) h).trans (Nat.le_add_left _ _)

/-- The voice of a place, if it is one. -/
def Place.onVoice : Place → Option VoiceId
  | .entry _ => none
  | .incoming v _ => some v
  | .current v _ => some v

theorem Place.of_onVoice {p : Place} {v : VoiceId} (h : p.onVoice = some v) :
    (∃ c, p = .incoming v c) ∨ ∃ k, p = .current v k := by
  cases p with
  | entry e => cases h
  | incoming u c => cases h; exact .inl ⟨c, rfl⟩
  | current u k => cases h; exact .inr ⟨k, rfl⟩

/-- Two places that hold one tag are the same place. -/
theorem State.HeldAt.unique {s : State} {tag : Tag} {p q : Place} (hs : s.claims (.tag tag) ≤ 1) (hp : s.HeldAt tag p)
    (hq : s.HeldAt tag q) : p = q := by
  have same_voice : ∀ {p q : Place} {u v}, s.HeldAt tag p → s.HeldAt tag q → p.onVoice = some u → q.onVoice = some v →
      p = q := by
    intro p q u v hp hq hu hv
    have hu' := Place.of_onVoice hu
    have hv' := Place.of_onVoice hv
    obtain rfl : u = v := by
      by_contra hne
      have := hp.voice_claims hu'
      have := hq.voice_claims hv'
      have := s.voice_add_voice_claims_le hne (.tag tag)
      omega
    have one := (s.voice_claims_le u (.tag tag)).trans hs
    have both : ∀ {c k}, (s.voice u).incoming = some c → c.tag = tag → (s.voice u).current = some k → k.cue.tag = tag →
        False := by
      intro c k hc ht hk ht'
      have := Cue.one_le_claims ht
      have := Cue.one_le_claims ht'
      simp only [Voice.claims, hc, hk, incomingClaims_some, currentClaims_some] at one
      omega
    rcases hu' with ⟨c, rfl⟩ | ⟨k, rfl⟩ <;> rcases hv' with ⟨c', rfl⟩ | ⟨k', rfl⟩
    · rw [Option.some.inj (hp.1.symm.trans hq.1)]
    · exact (both hp.1 hp.2 hq.1 hq.2).elim
    · exact (both hq.1 hq.2 hp.1 hp.2).elim
    · rw [Option.some.inj (hp.1.symm.trans hq.1)]
  have entry_voice : ∀ {e q v}, s.HeldAt tag (.entry e) → s.HeldAt tag q → q.onVoice = some v → False := by
    intro e q v he hq hv
    have := he.entries_claims
    have := hq.voice_claims (Place.of_onVoice hv)
    have := s.entries_add_voice_claims_le v (.tag tag)
    omega
  cases hu : p.onVoice with
  | some u =>
    cases hv : q.onVoice with
    | some v => exact same_voice hp hq hu hv
    | none =>
      cases q with
      | entry e => exact (entry_voice hq hp hu).elim
      | incoming v c => cases hv
      | current v k => cases hv
  | none =>
    cases p with
    | entry e =>
      cases q with
      | entry e' =>
        rw [entry_unique (by unfold State.claims at hs; omega) hp.1 hq.1 hp.2 hq.2]
      | incoming v c => exact (entry_voice hp hq rfl).elim
      | current v k => exact (entry_voice hp hq rfl).elim
    | incoming v c => cases hu
    | current v k => cases hu

theorem State.voicePlace_isSome {s : State} {tag : Tag} {v : VoiceId} {p : Place} (h : s.HeldAt tag p)
    (hv : p.onVoice = some v) : (s.voicePlace tag v).isSome := by
  rcases Place.of_onVoice hv with ⟨c, rfl⟩ | ⟨k, rfl⟩
  · simp only [State.voicePlace, h.1, h.2, if_true, Option.isSome_some]
  · cases hi : (s.voice v).incoming with
    | none => simp only [State.voicePlace, hi, h.1, h.2, if_true, Option.isSome_some]
    | some c =>
      simp only [State.voicePlace, hi, h.1, h.2, if_true, Option.bind_some]
      split <;> rfl

theorem mem_allVoices (v : VoiceId) : v ∈ allVoices := by revert v; decide

/-- The place that holds a tag is the one the part finds. -/
theorem State.place_of_held {s : State} {tag : Tag} {p : Place} (hs : s.claims (.tag tag) ≤ 1) (h : s.HeldAt tag p) :
    s.place tag = some p := by
  have found : (s.place tag).isSome := by
    unfold State.place
    split
    · rfl
    · rename_i hn
      cases hv : p.onVoice with
      | none =>
        cases p with
        | entry e => exact absurd h.2 (by simpa using List.find?_eq_none.mp hn e h.1)
        | incoming v c => cases hv
        | current v k => cases hv
      | some v => exact List.findSome?_isSome_iff.mpr ⟨v, mem_allVoices v, s.voicePlace_isSome h hv⟩
  obtain ⟨q, hq⟩ := Option.isSome_iff_exists.mp found
  rw [hq, (State.place_held hq).unique hs h]

/-- A tag that is held is live (R4). -/
theorem State.isLive_of_held {s : State} {tag : Tag} {p : Place} (hs : s.TagsOk) (h : s.HeldAt tag p) :
    s.isLive tag = true := by
  have claimed : 1 ≤ s.claims (.tag tag) := by
    cases hv : p.onVoice with
    | some v => exact (h.voice_claims (Place.of_onVoice hv)).trans (s.voice_claims_le v _)
    | none =>
      cases p with
      | entry e => exact h.entries_claims.trans (Nat.le_add_right _ _)
      | incoming v c => cases hv
      | current v k => cases hv
  rw [← s.count_heldTags, List.perm_iff_count.mp hs.2] at claimed
  simpa [State.isLive] using List.count_pos_iff.mp claimed

theorem State.not_isLive {s : State} {tag : Tag} (h : tag ∉ s.sched.live) : s.isLive tag = false := by
  simpa [State.isLive] using h

end Sys2Proof.Machine
end

section
/-! The requests that name a cue by its tag (R18 to R24), settled by the place that holds the tag. -/

namespace Sys2Proof.Machine

/-! ### CUE.STOP and CUE.CUT by tag (R18 to R21) -/

theorem State.stopTag_dead {s : State} {tag : Tag} (h : tag ∉ s.sched.live) : s.stopTag tag = (s, refuse .noSuchCue) := by
  simp [State.stopTag, State.not_isLive h]

theorem State.cutTag_dead {s : State} {tag : Tag} (h : tag ∉ s.sched.live) : s.cutTag tag = (s, refuse .noSuchCue) := by
  simp [State.cutTag, State.not_isLive h]

section Held

variable {s : State} {tag : Tag} (hs : s.TagsOk)
include hs

theorem State.stopTag_entry {e : Entry} (h : s.HeldAt tag (.entry e)) :
    s.stopTag tag = (s.removeEntry tag .stopped, answerOk [0]) := by
  simp [State.stopTag, State.isLive_of_held hs h, State.place_of_held (hs.claims_le tag) h]

theorem State.stopTag_incoming {v : VoiceId} {c : Cue} (h : s.HeldAt tag (.incoming v c)) :
    s.stopTag tag = (s.removeIncoming v .stopped, answerOk [0]) := by
  simp [State.stopTag, State.isLive_of_held hs h, State.place_of_held (hs.claims_le tag) h]

theorem State.stopTag_playing {v : VoiceId} {k : Current} (h : s.HeldAt tag (.current v k))
    (ha : (s.voice v).state = .active) : s.stopTag tag = (s.enterEnding v .stopped, answerOk [1]) := by
  simp only [State.stopTag, State.isLive_of_held hs h, State.place_of_held (hs.claims_le tag) h, ha]
  rfl

theorem State.stopTag_ending {v : VoiceId} {k : Current} (h : s.HeldAt tag (.current v k))
    (ha : (s.voice v).state ≠ .active) : s.stopTag tag = (s, answerOk [2]) := by
  simp only [State.stopTag, State.isLive_of_held hs h, State.place_of_held (hs.claims_le tag) h, ha]
  rfl

theorem State.cutTag_entry {e : Entry} (h : s.HeldAt tag (.entry e)) :
    s.cutTag tag = (s.removeEntry tag .cut, answerOk [0]) := by
  simp [State.cutTag, State.isLive_of_held hs h, State.place_of_held (hs.claims_le tag) h]

theorem State.cutTag_incoming {v : VoiceId} {c : Cue} (h : s.HeldAt tag (.incoming v c)) :
    s.cutTag tag = (s.removeIncoming v .cut, answerOk [0]) := by
  simp [State.cutTag, State.isLive_of_held hs h, State.place_of_held (hs.claims_le tag) h]

theorem State.cutTag_current {v : VoiceId} {k : Current} (h : s.HeldAt tag (.current v k)) :
    s.cutTag tag = (s.endAtOnce v .cut, answerOk [3]) := by
  simp [State.cutTag, State.isLive_of_held hs h, State.place_of_held (hs.claims_le tag) h]

end Held

theorem exec_cueStop {s : State} {num : Byte} {f : List Byte} (h : s.Passes .cueStop num f) :
    exec (.cueStop num f) s = .next (State.answered (ownStop f s.heard).1 .cueStop num f (ownStop f s.heard).2) :=
  request_passes s .cueStop num f h

theorem exec_cueCut {s : State} {num : Byte} {f : List Byte} (h : s.Passes .cueCut num f) :
    exec (.cueCut num f) s = .next (State.answered (ownCut f s.heard).1 .cueCut num f (ownCut f s.heard).2) :=
  request_passes s .cueCut num f h

theorem ownStop_tag {s : State} {f : List Byte} (h : u8 f 0 = 0) : ownStop f s = s.stopTag (u16 f 1) := by
  simp [ownStop, h]

theorem ownCut_tag {s : State} {f : List Byte} (h : u8 f 0 = 0) : ownCut f s = s.cutTag (u16 f 1) := by
  simp [ownCut, h]

/-- Settles O28. -/
theorem cuesAreStoppedAndCutByTag : Obligations.CuesAreStoppedAndCutByTag := by
  refine ⟨fun s num f h hf hs => ?_, fun s num f h hf hs => ?_⟩
  · have hh : s.heard.TagsOk := hs
    dsimp only
    simp only [exec_cueStop h, ownStop_tag hf]
    refine ⟨fun hl => ?_, fun e he ht => ?_, fun v => ⟨fun c hc ht => ?_, fun k hk ht => ⟨fun ha => ?_, fun ha => ?_⟩⟩⟩
    · rw [State.stopTag_dead (s := s.heard) hl]; rfl
    · rw [State.stopTag_entry hh (e := e) ⟨he, ht⟩]; rfl
    · rw [State.stopTag_incoming hh (v := v) (c := c) ⟨hc, ht⟩]; rfl
    · rw [State.stopTag_playing hh (v := v) (k := k) ⟨hk, ht⟩ ha]; rfl
    · rw [State.stopTag_ending hh (v := v) (k := k) ⟨hk, ht⟩ ha]; rfl
  · have hh : s.heard.TagsOk := hs
    dsimp only
    simp only [exec_cueCut h, ownCut_tag hf]
    refine ⟨fun hl => ?_, fun e he ht => ?_, fun v => ⟨fun c hc ht => ?_, fun k hk ht => ?_⟩⟩
    · rw [State.cutTag_dead (s := s.heard) hl]; rfl
    · rw [State.cutTag_entry hh (e := e) ⟨he, ht⟩]; rfl
    · rw [State.cutTag_incoming hh (v := v) (c := c) ⟨hc, ht⟩]; rfl
    · rw [State.cutTag_current hh (v := v) (k := k) ⟨hk, ht⟩]; rfl

/-! ### CUE.QUERY (R24) -/

theorem exec_cueQuery {s : State} {num : Byte} {f : List Byte} (h : s.Passes .cueQuery num f) :
    exec (.cueQuery num f) s = .next (State.answered (ownQuery f s.heard).1 .cueQuery num f (ownQuery f s.heard).2) :=
  request_passes s .cueQuery num f h

theorem ownQuery_dead {s : State} {f : List Byte} (h : u16 f 0 ∉ s.sched.live) : ownQuery f s = (s, refuse .noSuchCue) := by
  simp [ownQuery, State.not_isLive h]

theorem ownQuery_held {s : State} {f : List Byte} (hs : s.TagsOk) {p : Place} (h : s.HeldAt (u16 f 0) p) :
    ownQuery f s = (s, answerOk (s.queryResults p)) := by
  simp [ownQuery, State.isLive_of_held hs h, State.place_of_held (hs.claims_le _) h]

/-- The flags of a CUE.QUERY reply are its two presence bits, added. -/
theorem queryFlags_eq (deadline : Option Tick) (reason : Option EndReason) :
    (yesNo deadline.isSome ||| (yesNo reason.isSome <<< 1) : Byte) =
      (if deadline = none then 0 else 1) + if reason = none then 0 else 2 := by
  cases deadline <;> cases reason <;> simp [yesNo]

/-- The results of CUE.QUERY from what the place gives, in the words of the statement. -/
theorem State.queryResults_eq (s : State) (p : Place) (code voice : Byte) (repeats : Nat) (deadline : Option Tick)
    (reason : Option EndReason) (hcode : s.placeCode p = code) (hvoice : orNone p.voice = voice)
    (hrepeats : s.repeatsLeft p = repeats) (hdeadline : p.deadline = deadline) (hreason : s.placeReason p = reason) :
    s.queryResults p =
      [code, voice] ++ be32 p.cue.due ++ be32 p.cue.acceptance ++
          [byteOf p.cue.priority, byteOf p.cue.volume, byteOf repeats,
            (if deadline = none then 0 else 1) + if reason = none then 0 else 2] ++
        be32 (deadline.getD 0) ++
        [match reason with
          | some r => r.code
          | none => 0xFF] := by
  simp only [State.queryResults, hcode, hvoice, hrepeats, hdeadline, hreason, queryFlags_eq]
  cases reason <;> rfl

/-- Repeats left of a cue that is not yet placed (R24). -/
theorem State.repeatsLeft_stored (s : State) {p : Place} (h : ∀ v k, p ≠ .current v k) :
    s.repeatsLeft p = match p.cue.source with
      | .phrase _ => p.cue.repeats
      | _ => 1 := by
  cases p with
  | entry e => simp only [State.repeatsLeft, Place.cue]; cases e.cue.source <;> rfl
  | incoming v c => simp only [State.repeatsLeft, Place.cue]; cases c.source <;> rfl
  | current v k => exact absurd rfl (h v k)

/-- Repeats left of a cue on a voice: the player's count for a PHRASE cue (R24). -/
theorem State.repeatsLeft_current (s : State) (v : VoiceId) (k : Current) :
    s.repeatsLeft (.current v k) = match k.cue.source, (s.voice v).player with
      | .phrase _, some p => p.repeatsLeft
      | _, _ => 1 := by
  simp only [State.repeatsLeft, Place.cue]
  cases k.cue.source with
  | phrase id => cases hp : (s.voice v).player <;> simp only [hp] <;> rfl
  | _ => rfl

/-- Settles O32. -/
theorem cueQueryReads : Obligations.CueQueryReads := by
  intro s num f h hs
  have hh : s.heard.TagsOk := hs
  dsimp only
  simp only [exec_cueQuery h]
  refine ⟨fun hl => ?_, fun e he ht => ?_, fun v => ⟨fun c hc ht => ?_, fun k hk ht => ⟨fun ha => ?_, fun ha => ?_⟩⟩⟩
  · rw [ownQuery_dead (s := s.heard) hl]; rfl
  · have stored := s.heard.repeatsLeft_stored (p := .entry e) (by simp)
    rw [ownQuery_held hh (p := .entry e) ⟨he, ht⟩]
    cases hst : e.state with
    | scheduled =>
      rw [s.heard.queryResults_eq _ 0 0xFF _ none none (by simp [State.placeCode, hst]) rfl stored
        (by simp [Place.deadline, hst]) rfl]
      rfl
    | aligning =>
      rw [s.heard.queryResults_eq _ 1 0xFF _ none none (by simp [State.placeCode, hst]) rfl stored
        (by simp [Place.deadline, hst]) rfl]
      rfl
    | waiting =>
      rw [s.heard.queryResults_eq _ 2 0xFF _ e.cue.deadline none (by simp [State.placeCode, hst]) rfl stored
        (by simp [Place.deadline, hst]) rfl]
      rfl
  · rw [ownQuery_held hh (p := .incoming v c) ⟨hc, ht⟩,
      s.heard.queryResults_eq _ 3 (byteOf v.val) _ none none rfl rfl
        (s.heard.repeatsLeft_stored (by simp)) rfl rfl]
    rfl
  · rw [ownQuery_held hh (p := .current v k) ⟨hk, ht⟩,
      s.heard.queryResults_eq (.current v k) 4 (byteOf v.val) _ none none (if_pos ha) rfl
        (s.heard.repeatsLeft_current v k) rfl (if_pos ha)]
    rfl
  · rw [ownQuery_held hh (p := .current v k) ⟨hk, ht⟩,
      s.heard.queryResults_eq (.current v k) 5 (byteOf v.val) _ none k.cue.endReason (if_neg ha) rfl
        (s.heard.repeatsLeft_current v k) rfl (if_neg ha)]
    rfl

end Sys2Proof.Machine
end

section
/-! CUE.ADJUST (R23): what it refuses, and what it changes in each place. -/

namespace Sys2Proof.Machine

/-! ### The envelope under a new volume (R71, R72, R98) -/

/-- The movement toward a target that differs from the level. -/
theorem Envelope.approach_of_ne (e : Envelope) (g : Nat) (rates : Rates) (h : e.level ≠ g) :
    e.approach g rates =
      if (e.level < g ∧ rates.attack = 0) ∨ (g < e.level ∧ rates.release = 0) then
        { phase := .hold, level := g, target := g, rateCount := 0 }
      else { phase := .attack, level := e.level, target := g, rateCount := 0 } := by
  have rate : (if e.level < g then rates.attack else rates.release) = 0 ↔
      (e.level < g ∧ rates.attack = 0) ∨ (g < e.level ∧ rates.release = 0) := by
    split <;> omega
  rw [Envelope.approach, if_neg h]
  simp only [rate]

theorem Envelope.approach_of_eq (e : Envelope) (g : Nat) (rates : Rates) (h : e.level = g) :
    e.approach g rates = { phase := .hold, level := g, target := g, rateCount := 0 } := by
  rw [Envelope.approach, if_pos h, ← h]

/-- A voice whose PLAYING cue takes a new volume, where the volume asks for a target. -/
theorem Voice.revolume_some {v : VoiceId} {r : Voice} {volume : Option Nat} {g : Nat}
    (h : volume.bind (Voice.volumeTarget v r) = some g) :
    Voice.revolume v r volume = { r with env := r.rateStep.env.retarget g r.rates } := by
  obtain ⟨x, rfl, hx⟩ := Option.bind_eq_some_iff.mp h
  simp only [Voice.revolume, hx]
  rw [r.rateStep_eq]

/-- A voice whose PLAYING cue takes a new volume that asks for no target. -/
theorem Voice.revolume_none {v : VoiceId} {r : Voice} {volume : Option Nat}
    (h : volume.bind (Voice.volumeTarget v r) = none) : Voice.revolume v r volume = r := by
  cases volume with
  | none => rfl
  | some x =>
    have hx : Voice.volumeTarget v r x = none := h
    simp only [Voice.revolume, hx]

/-! ### The request -/

theorem exec_cueAdjust {s : State} {num : Byte} {f : List Byte} (h : s.Passes .cueAdjust num f) :
    exec (.cueAdjust num f) s = .next (State.answered (ownAdjust f s.heard).1 .cueAdjust num f (ownAdjust f s.heard).2) :=
  request_passes s .cueAdjust num f h

/-- The volume and the priority that a CUE.ADJUST carries, where they are present. -/
def adjustVolume (f : List Byte) : Option Nat := if flag f 2 0 then some (u8 f 3).toNat else none

def adjustPriority (f : List Byte) : Option Nat := if flag f 2 1 then some (u8 f 4).toNat else none

theorem ownAdjust_empty {s : State} {f : List Byte} (hv : adjustVolume f = none) (hp : adjustPriority f = none) :
    ownAdjust f s = (s, badParam 2) := by
  have e : ((adjustVolume f).isNone && (adjustPriority f).isNone) = true := by simp [hv, hp]
  unfold ownAdjust
  exact if_pos e

section Present

variable {s : State} {f : List Byte} (hany : adjustVolume f ≠ none ∨ adjustPriority f ≠ none)
include hany

theorem adjust_present : ¬((adjustVolume f).isNone && (adjustPriority f).isNone) = true := by
  simpa [Option.isNone_iff_eq_none, imp_iff_not_or] using hany

theorem ownAdjust_dead (h : u16 f 0 ∉ s.sched.live) : ownAdjust f s = (s, refuse .noSuchCue) := by
  unfold ownAdjust
  refine (if_neg (adjust_present hany)).trans ?_
  simp [State.not_isLive h]

theorem ownAdjust_refused (hs : s.TagsOk) {p : Place} (hp : s.HeldAt (u16 f 0) p)
    (hr : s.adjustRefused p (adjustPriority f) = true) : ownAdjust f s = (s, refuse .cueState) := by
  unfold ownAdjust
  refine (if_neg (adjust_present hany)).trans ?_
  simp only [State.isLive_of_held hs hp, State.place_of_held (hs.claims_le _) hp]
  exact if_pos hr

theorem ownAdjust_changed (hs : s.TagsOk) {p : Place} (hp : s.HeldAt (u16 f 0) p)
    (hr : s.adjustRefused p (adjustPriority f) = false) :
    ownAdjust f s =
      (if p.cue.priority < (p.cue.adjusted (adjustVolume f) (adjustPriority f)).priority then
          (s.adjustPlace p (adjustVolume f) (adjustPriority f)).askPass
        else s.adjustPlace p (adjustVolume f) (adjustPriority f),
        answerOk
          [s.placeCode p, byteOf (p.cue.adjusted (adjustVolume f) (adjustPriority f)).volume,
            byteOf (p.cue.adjusted (adjustVolume f) (adjustPriority f)).priority]) := by
  unfold ownAdjust
  refine (if_neg (adjust_present hany)).trans ?_
  simp only [State.isLive_of_held hs hp, State.place_of_held (hs.claims_le _) hp]
  exact if_neg fun ht : s.adjustRefused p (adjustPriority f) = true => Bool.false_ne_true (hr.symm.trans ht)

end Present

/-- An answer with a pass asked where the priority is raised. -/
theorem answered_asked {t u : State} (h : t.heard = u.heard) (p : Prop) [Decidable p] (r : Request) (num : Byte)
    (f : List Byte) (a : Answer) :
    State.answered (if p then t.askPass else t) r num f a =
      State.answered (if p then { u with alloc := { u.alloc with passes := u.alloc.passes + 1 } } else u) r num f a := by
  refine answered_congr ?_ r num f a
  split
  · exact congrArg State.askPass h
  · exact h

/-- The target a new volume asks for on a voice, in the words of R72 and R98. -/
theorem Voice.volumeTarget_bind (v : VoiceId) (r : Voice) (volume : Option Nat) :
    volume.bind (Voice.volumeTarget v r) =
      if v = 6 then volume
      else
        match volume, r.player.bind (·.stepVolume) with
        | some x, some sv => some (sv * x / 15)
        | _, _ => none := by
  cases volume with
  | none => simp
  | some x =>
    rw [Option.bind_some]
    refine if_congr Iff.rfl rfl ?_
    cases r.player.bind (·.stepVolume) <;> rfl

/-- A change of the target in the words of R72: by the phase of the envelope. -/
theorem Envelope.retarget_eq (e : Envelope) (g : Nat) (rates : Rates) :
    e.retarget g rates =
      match e.phase with
      | .attack =>
        if e.level = g then { phase := .hold, level := g, target := g, rateCount := 0 }
        else if (e.level < g ∧ rates.attack = 0) ∨ (g < e.level ∧ rates.release = 0) then
          { phase := .hold, level := g, target := g, rateCount := 0 }
        else { phase := .attack, level := e.level, target := g, rateCount := 0 }
      | .hold =>
        if e.level = g then { e with target := g }
        else if (e.level < g ∧ rates.attack = 0) ∨ (g < e.level ∧ rates.release = 0) then
          { phase := .hold, level := g, target := g, rateCount := 0 }
        else { phase := .attack, level := e.level, target := g, rateCount := 0 }
      | .release => { e with target := g }
      | .silent => { e with target := g } := by
  rw [Envelope.retarget]
  cases e.phase with
  | attack =>
    by_cases hg : e.level = g
    · exact (e.approach_of_eq g rates hg).trans (if_pos hg).symm
    · exact (e.approach_of_ne g rates hg).trans (if_neg hg).symm
  | hold =>
    by_cases hg : e.level = g
    · exact (if_pos hg).trans (if_pos hg).symm
    · exact ((if_neg hg).trans (e.approach_of_ne g rates hg)).trans (if_neg hg).symm
  | release => rfl
  | silent => rfl

/-- A voice whose PLAYING cue takes a new volume: only its envelope may change. -/
theorem Voice.revolume_env (v : VoiceId) (r : Voice) (volume : Option Nat) :
    Voice.revolume v r volume =
      { r with
        env :=
          match volume.bind (Voice.volumeTarget v r) with
          | some g => r.rateStep.env.retarget g r.rates
          | none => r.env } := by
  cases h : volume.bind (Voice.volumeTarget v r) with
  | none => exact Voice.revolume_none h
  | some g => exact Voice.revolume_some h

/-- An incoming cue's new priority is refused where it is not greater than that of the departing cue (R23). -/
theorem State.adjustRefused_incoming {s : State} {v : VoiceId} {k : Current} (c : Cue) (hk : (s.voice v).current = some k)
    (priority : Option Nat) :
    s.adjustRefused (.incoming v c) priority = true ↔ ∃ x, priority = some x ∧ x ≤ k.cue.priority := by
  simp only [State.adjustRefused, hk]
  cases priority <;> simp

/-- An accepted CUE.ADJUST: `u` is the state with the changes made, up to what the link notes of a request. -/
theorem exec_cueAdjust_changed {s u : State} {num : Byte} {f : List Byte} {p : Place} (h : s.Passes .cueAdjust num f)
    (hany : adjustVolume f ≠ none ∨ adjustPriority f ≠ none) (hs : s.TagsOk) (hp : s.heard.HeldAt (u16 f 0) p)
    (hr : s.heard.adjustRefused p (adjustPriority f) = false)
    (hu : (s.heard.adjustPlace p (adjustVolume f) (adjustPriority f)).heard = u.heard) :
    exec (.cueAdjust num f) s =
      .next
        (State.answered
          (if p.cue.priority < (p.cue.adjusted (adjustVolume f) (adjustPriority f)).priority then
            { u with alloc := { u.alloc with passes := u.alloc.passes + 1 } }
          else u)
          .cueAdjust num f
          (answerOk
            [s.heard.placeCode p, byteOf (p.cue.adjusted (adjustVolume f) (adjustPriority f)).volume,
              byteOf (p.cue.adjusted (adjustVolume f) (adjustPriority f)).priority])) := by
  rw [exec_cueAdjust h, ownAdjust_changed hany (s := s.heard) hs hp hr]
  exact congrArg Host.Outcome.next (answered_asked hu _ _ _ _ _)

/-- Settles O31. -/
theorem cueAdjustChanges : Obligations.CueAdjustChanges := by
  intro s num f h hs
  have hh : s.heard.TagsOk := hs.tags
  have evol : adjustVolume f = if (u8 f 2).getLsbD 0 then some (u8 f 3).toNat else none := rfl
  have epri : adjustPriority f = if (u8 f 2).getLsbD 1 then some (u8 f 4).toNat else none := rfl
  dsimp only
  simp only [← evol, ← epri]
  refine ⟨fun hv hp => ?_, fun hany => ⟨fun hl => ?_, fun e he ht => ?_, fun v c k hc ht hk =>
    ⟨fun hle => ?_, fun hlt => ?_⟩, fun v k hk ht => ⟨fun ha => ?_, fun ha => ?_⟩⟩⟩
  · rw [exec_cueAdjust h, ownAdjust_empty hv hp]; rfl
  · rw [exec_cueAdjust h, ownAdjust_dead (s := s.heard) hany hl]; rfl
  · rw [← ht]
    exact exec_cueAdjust_changed (p := .entry e)
      (u := State.adjustPlace s (.entry e) (adjustVolume f) (adjustPriority f)) h hany hh ⟨he, ht⟩ rfl rfl
  · have hr := State.adjustRefused_incoming (s := s.heard) c hk (adjustPriority f)
    rw [exec_cueAdjust h,
      ownAdjust_refused hany hh (p := .incoming v c) ⟨hc, ht⟩ (hr.mpr hle)]
    rfl
  · have hr := State.adjustRefused_incoming (s := s.heard) c hk (adjustPriority f)
    exact exec_cueAdjust_changed (p := .incoming v c)
      (u := State.adjustPlace s.heard (.incoming v c) (adjustVolume f) (adjustPriority f)) h hany hh ⟨hc, ht⟩
      (Bool.eq_false_iff.mpr fun ht => let ⟨x, hx, hle⟩ := hr.mp ht; (hlt x hx).not_ge hle) rfl
  · rw [exec_cueAdjust h, ownAdjust_refused hany hh (p := .current v k) ⟨hk, ht⟩ (bne_iff_ne.mpr ha)]
    rfl
  · refine (exec_cueAdjust_changed (p := .current v k)
      (u := State.adjustPlace s.heard (.current v k) (adjustVolume f) (adjustPriority f)) h hany hh ⟨hk, ht⟩
      (bne_eq_false_iff_eq.mpr ha) rfl).trans ?_
    rw [show s.heard.placeCode (.current v k) = 4 from if_pos ha, State.adjustPlace, Voice.revolume_env]
    simp only [Envelope.retarget_eq, Voice.volumeTarget_bind]
    rfl

end Sys2Proof.Machine
end

section
/-! Beat edges and the loss of SYNC, written out (R108 to R111, R117, R118). -/

namespace Sys2Proof.Machine

/-- What a beat edge releases (R9): BEAT at any edge, BAR at beat 1. -/
theorem Entry.releasedBy_eq (e : Entry) (b : Nat) :
    e.releasedBy b = (e.state == .aligning && (e.cue.quantize != .bar || b == 1)) := by
  unfold Entry.releasedBy
  cases e.cue.quantize <;> rfl

/-- A delivered beat edge, written out (R9, R10, R109). -/
theorem State.deliverBeat_eq (s : State) :
    s.deliverBeat =
      { s with
        sched :=
          { s.sched with
            entries :=
              s.sched.entries.map fun e =>
                if e.state == .aligning && (e.cue.quantize != .bar || s.time.beatInBar == 1) then e.wait s.time.tick
                else e }
        alloc :=
          { s.alloc with
            passes :=
              s.alloc.passes +
                if s.sched.entries.any fun e =>
                    e.state == .aligning && (e.cue.quantize != .bar || s.time.beatInBar == 1) then 1
                else 0 }
        reports := s.reports.offer (.beat s.time.beatInBar s.time.barNumber) s.time.tick } := by
  simp only [← Entry.releasedBy_eq]
  rw [State.deliverBeat, State.releaseEvent, s.moveEntries_eq _ _ _ _ (fun e => Bool.and_true _) fun _ _ => rfl]
  rfl

/-- A bar restart is used up by the edge it restarts at (R108). -/
theorem TimeBase.movePosition_barRestart (t : TimeBase) : t.movePosition.barRestart = false := by
  simp only [TimeBase.movePosition]
  split
  · rfl
  · rename_i h
    exact (Bool.or_eq_false_iff.mp (Bool.eq_false_iff.mpr h)).1

/-- The position after an edge, written out (R108, R111). -/
theorem TimeBase.movePosition_eq (t : TimeBase) :
    t.movePosition =
      { t with
        barInForce := t.configuredBar
        barRestart := false
        beatInBar := if t.barRestart || decide (t.configuredBar ≤ t.beatInBar) then 1 else t.beatInBar + 1
        barNumber := if t.barRestart || decide (t.configuredBar ≤ t.beatInBar) then t.barNumber + 1 else t.barNumber
        lastBeat := some t.tick
        interval := 0
        beatAsk := none } := by
  rw [← t.movePosition_barRestart]
  rfl

/-- The length an internal edge sets, written out (R110). -/
theorem TimeBase.internalLength_eq (t : TimeBase) :
    t.internalLength =
      { t with
        effectiveBeat := if t.lengthPending then t.configuredBeat else t.effectiveBeat
        lengthPending := false } := by
  unfold TimeBase.internalLength
  split
  · rfl
  · rename_i h
    rw [← Bool.eq_false_iff.mpr h]

/-- The length a SYNC edge sets, written out (R110). -/
theorem TimeBase.syncLength_eq (t : TimeBase) :
    t.syncLength =
      { t with
        effectiveBeat :=
          (match t.previousSync with
            | some p => max 20 (min 5000 (t.tick - p).toNat)
            | none => t.configuredBeat)
        lengthPending := false } := by
  unfold TimeBase.syncLength
  cases t.previousSync <;> rfl

/-- A SYNC edge is the delivery of its beat, after SYNC_REGAINED where sync was in fallback (R117). -/
theorem State.takeSyncEdge_eq (s : State) :
    s.takeSyncEdge =
      State.deliverBeat
        { s with
          time := s.time.atSync.movePosition
          reports := if s.time.sync = .fallback then s.reports.offer .syncRegained s.time.tick else s.reports } := by
  have tick : s.time.atSync.tick = s.time.tick := by rw [TimeBase.atSync, TimeBase.syncLength_eq]
  unfold State.takeSyncEdge
  dsimp only
  split
  · rw [← tick]
    rfl
  · rfl

theorem TimeBase.atSync_eq (t : TimeBase) :
    t.atSync =
      { t with
        effectiveBeat :=
          (match t.previousSync with
            | some p => max 20 (min 5000 (t.tick - p).toNat)
            | none => t.configuredBeat)
        lengthPending := false
        previousSync := some t.tick
        lossReference := some t.tick
        interval := 0
        sync := .locked } := by
  rw [TimeBase.atSync, TimeBase.syncLength_eq]

/-- Settles O46. -/
theorem beatEdgesAreTaken : Obligations.BeatEdgesAreTaken := by
  refine ⟨fun s hr => ⟨fun ha => ?_, fun ha => ?_⟩, fun s r hr hsync ha hl hlost => ?_⟩
  · have run : exec .internalBeatEdge s = s.event .internalEdge := rfl
    rw [run, event_stands s .internalEdge hr (beq_iff_eq.mpr ha), State.carry, State.takeInternalEdge, State.deliverBeat_eq,
      TimeBase.movePosition_eq, TimeBase.internalLength_eq]
    rfl
  · have run : exec .syncEdge s = s.event .syncEdge := rfl
    rw [run, event_stands s .syncEdge hr (beq_iff_eq.mpr ha), State.carry, State.takeSyncEdge_eq, State.deliverBeat_eq,
      TimeBase.movePosition_eq, TimeBase.atSync_eq]
    rfl
  · have run : exec .syncLoss s = s.event .loss := rfl
    have found : s.time.lossFound = true := by
      simpa only [TimeBase.lossFound, ha, hl, hsync, Option.isNone_none, Option.any_some, Bool.true_and,
        Bool.and_eq_true, Bool.or_eq_true, beq_iff_eq, decide_eq_true_eq, true_and] using hlost
    rw [run, event_stands s .loss hr found, State.carry, State.takeLoss, if_pos found, hl]
    rfl

end Sys2Proof.Machine
end

section
/-! What the work of one voice can touch. Entry to ENDING, the end of a cue and the start of one are runs of a few deeds, fixed by
the voice's record and by what this file calls the ground: whatever they read and do not change. So the outcome on one voice
does not depend on what happens on the others, and no other voice is touched. -/

namespace Sys2Proof.Machine

/-! ### The ground -/

/-- A phrase slot without its reference count. -/
def PhraseSlot.uncounted (p : PhraseSlot) : PhraseSlot := { p with refs := 0 }

/-- What the work of a voice reads beside its own record. -/
structure Basis where
  time : TimeBase
  pitchMap : Vector Nat 128
  pool : Vector Page 64
  phrases : PhraseId → PhraseSlot

def State.basis (s : State) : Basis :=
  { time := s.time, pitchMap := s.pitchMap, pool := s.store.pool, phrases := fun id => (s.phrase id).uncounted }

/-- What the work of a voice reads, and what a stop or a cut leaves alone beside it. -/
structure Ground where
  basis : Basis
  triggers : TriggerUnit
  link : Link
  pending : List Instr
  counter : BitVec 32

def State.ground (s : State) : Ground :=
  { basis := s.basis, triggers := s.triggers, link := s.link, pending := s.pending, counter := s.sched.counter }

theorem basis_of_ground {s t : State} (h : t.ground = s.ground) : t.basis = s.basis := congrArg Ground.basis h

/-- The ground speaks of these parts of the state alone. -/
theorem State.ground_congr {s t : State} (hti : t.time = s.time) (hpm : t.pitchMap = s.pitchMap)
    (htr : t.triggers = s.triggers) (hl : t.link = s.link) (hpe : t.pending = s.pending) (hc : t.sched.counter = s.sched.counter)
    (hst : t.store = s.store) : t.ground = s.ground := by
  simp only [State.ground, State.basis, State.phrase, hti, hpm, htr, hl, hpe, hc, hst]

@[simp] theorem State.offer_ground (s : State) (k : ReportKind) : (s.offer k).ground = s.ground := rfl

@[simp] theorem State.askPass_ground (s : State) : s.askPass.ground = s.ground := rfl

@[simp] theorem State.dropTag_ground (s : State) (x : Tag) : (s.dropTag x).ground = s.ground := rfl

@[simp] theorem State.dropEntry_ground (s : State) (x : Tag) : (s.dropEntry x).ground = s.ground := rfl

@[simp] theorem State.putStream_ground (s : State) (i : StreamSlotId) (x : Option OpenStream) :
    (s.putStream i x).ground = s.ground := rfl

@[simp] theorem State.putVoice_ground (s : State) (v : VoiceId) (r : Voice) : (s.putVoice v r).ground = s.ground :=
  State.ground_congr (by simp) (by simp) (by simp) (by simp) (by simp) (by simp) (by simp)

@[simp] theorem State.closeStream_ground (s : State) (i : StreamSlotId) : (s.closeStream i).ground = s.ground :=
  State.ground_congr (by simp) (by simp) (by simp) (by simp) (by simp) (by simp) (by simp)

theorem State.ground_of_phrases {s t : State} (h : ∀ id, (t.phrase id).uncounted = (s.phrase id).uncounted)
    (e : t = { s with store := { s.store with slots := t.store.slots } }) : t.ground = s.ground := by
  have hp : t.basis.phrases = s.basis.phrases := funext h
  generalize hq : t.basis.phrases = q at hp
  subst hp
  rw [e] at hq ⊢
  rw [State.ground, State.ground, State.basis, State.basis]
  congr

@[simp] theorem State.refUp_ground (s : State) (id : PhraseId) : (s.refUp id).ground = s.ground := by
  refine State.ground_of_phrases (fun j => ?_) rfl
  rw [State.refUp_phrase]
  split
  · rename_i e; subst e; rfl
  · rfl

@[simp] theorem State.refDown_ground (s : State) (id : PhraseId) : (s.refDown id).ground = s.ground := by
  refine State.ground_of_phrases (fun j => ?_) rfl
  rw [State.refDown_phrase]
  split
  · rename_i e; subst e; rfl
  · rfl

@[simp] theorem State.releaseSource_ground (s : State) (c : Cue) : (s.releaseSource c).ground = s.ground := by
  unfold State.releaseSource
  split
  · simp
  · rfl
  · rfl
  · split
    · simp
    · rfl

@[simp] theorem State.retire_ground (s : State) (c : Cue) (r : EndReason) (v : Option VoiceId) :
    (s.retire c r v).ground = s.ground := by simp [State.retire]

section SameBasis

variable {s t : State} (h : t.basis = s.basis)
include h

theorem time_of_basis : t.time = s.time := congrArg Basis.time h

theorem pitchMap_of_basis : t.pitchMap = s.pitchMap := congrArg Basis.pitchMap h

/-- What does not look at the reference count of a slot is the same on the same basis. -/
theorem slot_of_basis {α : Type} (f : PhraseSlot → α) (hf : ∀ p, f p.uncounted = f p) (id : PhraseId) :
    f (t.phrase id) = f (s.phrase id) := by
  rw [← hf, ← hf (s.phrase id)]
  exact congrArg f (congrFun (congrArg Basis.phrases h) id)

theorem theHeader_of_basis (id : PhraseId) : (t.phrase id).theHeader = (s.phrase id).theHeader :=
  slot_of_basis h PhraseSlot.theHeader (fun _ => rfl) id

theorem stepCount_of_basis (id : PhraseId) : (t.phrase id).stepCount = (s.phrase id).stepCount :=
  slot_of_basis h PhraseSlot.stepCount (fun _ => rfl) id

theorem phraseReady_of_basis (id : PhraseId) : t.phraseReady id = s.phraseReady id :=
  slot_of_basis h (fun p => p.state == .ready) (fun _ => rfl) id

theorem stepAt_of_basis (id : PhraseId) (i : Nat) :
    t.store.stepAt (t.phrase id) i = s.store.stepAt (s.phrase id) i := by
  have pages : (t.phrase id).pages = (s.phrase id).pages := slot_of_basis h PhraseSlot.pages (fun _ => rfl) id
  have pool : t.store.pool = s.store.pool := congrArg Basis.pool h
  simp only [PhraseStore.stepAt, pages, pool]

theorem finalRate_of_basis (c : Cue) : t.finalRate c = s.finalRate c := by
  unfold State.finalRate
  cases c.source with
  | phrase id => exact congrArg (fun x : Header => x.rates.release) (theHeader_of_basis h id)
  | _ => rfl

theorem stepHeader_of_basis (p : Player) (c : Cue) : t.stepHeader p c = s.stepHeader p c := by
  unfold State.stepHeader
  cases p.call with
  | some call => exact theHeader_of_basis h _
  | none =>
    cases p.top with
    | some top => exact theHeader_of_basis h _
    | none => rfl

end SameBasis

/-! ### Deeds -/

/-- One deed of a voice at work on a cue. -/
inductive Deed where
  | report (k : ReportKind)
  | put (r : Voice)
  | refUp (p : PhraseId)
  | refDown (p : PhraseId)
  | drop
  | close
  | freeze
  | play
  | ask

/-- The slot of the stream bound to a tag, closed. -/
def State.closeBound (s : State) (tag : Tag) : State :=
  match s.boundSlot tag with
  | some i => s.closeStream i
  | none => s

/-- The stream bound to a tag, playing from its first byte (R131). -/
def State.playBound (s : State) (tag : Tag) : State :=
  match s.boundSlot tag with
  | some i =>
    match s.stream i with
    | some t => s.putStream i (some { t with state := .playing, read := some { index := 0, holdCount := 0 } })
    | none => s
  | none => s

def Deed.carry (v : VoiceId) (tag : Tag) (s : State) : Deed → State
  | .report k => s.offer k
  | .put r => s.putVoice v r
  | .refUp p => s.refUp p
  | .refDown p => s.refDown p
  | .drop => s.dropTag tag
  | .close => s.closeBound tag
  | .freeze => s.freezeStream v tag
  | .play => s.playBound tag
  | .ask => s.askPass

/-- A voice record holds no other cue than one of this tag and group. -/
def Voice.Fits (r : Voice) (tag : Tag) (group : Nat) : Prop :=
  ∀ k, r.current = some k → k.cue.tag = tag ∧ k.cue.group = group

/-- A deed writes only records that fit. -/
def Deed.Fits (tag : Tag) (group : Nat) : Deed → Prop
  | .put r => r.Fits tag group
  | _ => True

@[simp] theorem State.freezeStream_ground (s : State) (v : VoiceId) (tag : Tag) : (s.freezeStream v tag).ground = s.ground := by
  unfold State.freezeStream
  split
  · split <;> rfl
  · rfl

theorem State.freezeStream_parts (s : State) (v : VoiceId) (tag : Tag) :
    (s.freezeStream v tag).alloc = s.alloc ∧ (s.freezeStream v tag).sched = s.sched := by
  unfold State.freezeStream
  split
  · split <;> exact ⟨rfl, rfl⟩
  · exact ⟨rfl, rfl⟩

theorem State.closeBound_parts (s : State) (tag : Tag) :
    (s.closeBound tag).ground = s.ground ∧ (s.closeBound tag).alloc = s.alloc ∧ (s.closeBound tag).sched = s.sched := by
  unfold State.closeBound
  split
  · exact ⟨by simp, by simp, by simp⟩
  · exact ⟨rfl, rfl, rfl⟩

theorem State.playBound_parts (s : State) (tag : Tag) :
    (s.playBound tag).ground = s.ground ∧ (s.playBound tag).alloc = s.alloc ∧ (s.playBound tag).sched = s.sched := by
  unfold State.playBound
  split
  · split <;> exact ⟨rfl, rfl, rfl⟩
  · exact ⟨rfl, rfl, rfl⟩

namespace Deed

variable (v : VoiceId) (tag : Tag) (s : State) (d : Deed)

@[simp] theorem carry_ground : (d.carry v tag s).ground = s.ground := by
  cases d with
  | close => exact (s.closeBound_parts tag).1
  | play => exact (s.playBound_parts tag).1
  | _ => simp [carry]

@[simp] theorem carry_entries : (d.carry v tag s).sched.entries = s.sched.entries := by
  cases d with
  | close => exact congrArg _ (s.closeBound_parts tag).2.2
  | play => exact congrArg _ (s.playBound_parts tag).2.2
  | freeze => exact congrArg _ (s.freezeStream_parts v tag).2
  | drop => rfl
  | _ => simp [carry]

theorem carry_live {x : Tag} (h : x ∈ (d.carry v tag s).sched.live) : x ∈ s.sched.live := by
  cases d with
  | close => rwa [carry, (s.closeBound_parts tag).2.2] at h
  | play => rwa [carry, (s.playBound_parts tag).2.2] at h
  | freeze => rwa [carry, (s.freezeStream_parts v tag).2] at h
  | drop => exact (List.mem_filter.mp h).1
  | _ => simpa [carry] using h

theorem carry_voice :
    (∀ u, u ≠ v → (d.carry v tag s).voice u = s.voice u) ∧
      (d.carry v tag s).voice v = match d with
        | .put r => r
        | _ => s.voice v := by
  cases d with
  | put r => exact ⟨fun u h => s.putVoice_other v u r h, s.putVoice_same v r⟩
  | close => simp only [carry, State.voice, (s.closeBound_parts tag).2.1, implies_true, and_self]
  | play => simp only [carry, State.voice, (s.playBound_parts tag).2.1, implies_true, and_self]
  | freeze => simp only [carry, State.voice, (s.freezeStream_parts v tag).1, implies_true, and_self]
  | _ => exact ⟨fun _ _ => rfl, rfl⟩

end Deed

end Sys2Proof.Machine
end

section
/-! The work of a voice as a run of deeds: entry to ENDING, the end of a cue, the step player, and the start of a cue. -/

namespace Sys2Proof.Machine

/-- On the basis and the voice record of `s`, the operation is one run of deeds that fit this tag and group. -/
def Works (v : VoiceId) (tag : Tag) (group : Nat) (s : State) (f : State → State) : Prop :=
  ∃ l : List Deed, (∀ d ∈ l, d.Fits tag group) ∧
    ∀ t, t.basis = s.basis → t.voice v = s.voice v → f t = l.foldl (Deed.carry v tag) t

section Runs

variable {v : VoiceId} {tag : Tag} {group : Nat} (l : List Deed)

/-- A run of deeds keeps what every deed keeps. -/
theorem run_keeps {P : State → Prop} (h : ∀ s d, P s → P (Deed.carry v tag s d)) (s : State) (hs : P s) :
    P (l.foldl (Deed.carry v tag) s) := by
  induction l generalizing s with
  | nil => exact hs
  | cons d l ih => exact ih _ (h s d hs)

theorem run_ground (s : State) : (l.foldl (Deed.carry v tag) s).ground = s.ground :=
  run_keeps (P := fun t => t.ground = s.ground) l (fun t d h => (d.carry_ground v tag t).trans h) s rfl

theorem run_entries (s : State) : (l.foldl (Deed.carry v tag) s).sched.entries = s.sched.entries :=
  run_keeps (P := fun t => t.sched.entries = s.sched.entries) l (fun t d h => (d.carry_entries v tag t).trans h) s rfl

theorem run_not_live {x : Tag} (s : State) (h : x ∉ s.sched.live) : x ∉ (l.foldl (Deed.carry v tag) s).sched.live :=
  run_keeps (P := fun t => x ∉ t.sched.live) l (fun t d h h' => h (d.carry_live v tag t h')) s h

theorem run_voice_other {u : VoiceId} (hu : u ≠ v) (s : State) : (l.foldl (Deed.carry v tag) s).voice u = s.voice u :=
  run_keeps (P := fun t => t.voice u = s.voice u) l (fun t d h => ((d.carry_voice v tag t).1 u hu).trans h) s rfl

theorem run_fits (hl : ∀ d ∈ l, d.Fits tag group) (s : State) (h : (s.voice v).Fits tag group) :
    ((l.foldl (Deed.carry v tag) s).voice v).Fits tag group := by
  induction l generalizing s with
  | nil => exact h
  | cons d l ih =>
    refine ih (fun e he => hl e (List.mem_cons_of_mem _ he)) _ ?_
    rw [(d.carry_voice v tag s).2]
    cases d with
    | put r => exact hl _ List.mem_cons_self
    | _ => exact h

/-- The record a run leaves depends on no more than the record it finds. -/
theorem run_voice_congr {s t : State} (h : t.voice v = s.voice v) :
    (l.foldl (Deed.carry v tag) t).voice v = (l.foldl (Deed.carry v tag) s).voice v := by
  induction l generalizing s t with
  | nil => exact h
  | cons d l ih =>
    refine ih ?_
    rw [(d.carry_voice v tag s).2, (d.carry_voice v tag t).2]
    cases d with
    | put r => rfl
    | _ => exact h

end Runs

namespace Works

variable {v : VoiceId} {tag : Tag} {group : Nat} {s t : State} {f g : State → State}

theorem run (h : Works v tag group s f) :
    ∃ l : List Deed, (∀ d ∈ l, d.Fits tag group) ∧ f s = l.foldl (Deed.carry v tag) s := by
  obtain ⟨l, hl, h⟩ := h
  exact ⟨l, hl, h s rfl rfl⟩

theorem ground (h : Works v tag group s f) : (f s).ground = s.ground := by
  obtain ⟨l, -, e⟩ := h.run
  rw [e, run_ground]

theorem entries (h : Works v tag group s f) : (f s).sched.entries = s.sched.entries := by
  obtain ⟨l, -, e⟩ := h.run
  rw [e, run_entries]

theorem not_live (h : Works v tag group s f) {x : Tag} (hx : x ∉ s.sched.live) : x ∉ (f s).sched.live := by
  obtain ⟨l, -, e⟩ := h.run
  rw [e]
  exact run_not_live l s hx

theorem voice_other (h : Works v tag group s f) {u : VoiceId} (hu : u ≠ v) : (f s).voice u = s.voice u := by
  obtain ⟨l, -, e⟩ := h.run
  rw [e, run_voice_other l hu]

theorem fits (h : Works v tag group s f) (hf : (s.voice v).Fits tag group) : ((f s).voice v).Fits tag group := by
  obtain ⟨l, hl, e⟩ := h.run
  rw [e]
  exact run_fits l hl s hf

/-- The record the work leaves is the same from any state on the same basis with the same record. -/
theorem voice_congr (h : Works v tag group s f) (hg : t.basis = s.basis) (hv : t.voice v = s.voice v) :
    (f t).voice v = (f s).voice v := by
  obtain ⟨l, -, h⟩ := h
  rw [h t hg hv, h s rfl rfl, run_voice_congr l hv]

theorem congr (h : Works v tag group s f) (e : ∀ t, t.basis = s.basis → t.voice v = s.voice v → g t = f t) :
    Works v tag group s g := by
  obtain ⟨l, hl, h⟩ := h
  exact ⟨l, hl, fun t hg hv => (e t hg hv).trans (h t hg hv)⟩

theorem deed (d : Deed) (hd : d.Fits tag group) : Works v tag group s fun t => d.carry v tag t :=
  ⟨[d], by simpa using hd, fun _ _ _ => rfl⟩

theorem none : Works v tag group s fun t => t :=
  ⟨[], by simp, fun _ _ _ => rfl⟩

theorem comp (hf : Works v tag group s f) (hg : Works v tag group (f s) g) : Works v tag group s fun t => g (f t) := by
  obtain ⟨l, hl, h⟩ := hf
  obtain ⟨m, hm, k⟩ := hg
  refine ⟨l ++ m, fun d hd => ?_, fun t ht hv => ?_⟩
  · rcases List.mem_append.mp hd with hd | hd
    · exact hl d hd
    · exact hm d hd
  · rw [List.foldl_append, ← h t ht hv]
    refine k _ ?_ ?_
    · rw [h t ht hv, h s rfl rfl, basis_of_ground (run_ground l t), basis_of_ground (run_ground l s), ht]
    · rw [h t ht hv, h s rfl rfl, run_voice_congr l hv]

/-- A deed after the work. -/
theorem andThen (hf : Works v tag group s f) (d : Deed) (hd : d.Fits tag group) :
    Works v tag group s fun t => d.carry v tag (f t) :=
  hf.comp (deed d hd)

end Works

/-! ### The end of a cue (R42) and entry to ENDING (R41) -/

theorem Voice.idle_fits (tag : Tag) (group : Nat) : Voice.idle.Fits tag group := fun _ h => by cases h

/-- The record of a cue that enters ENDING (R41). -/
def Voice.ending (r : Voice) (k : Current) (rate : Nat) (reason : EndReason) : Voice :=
  { r.rateStep with
    state := .ending
    releaseMode := some .normal
    current := some (k.withReason reason)
    env := r.rateStep.env.finalRelease rate
    player := r.rateStep.player.map fun p => { p with rates := { attack := rate, release := rate } } }

theorem State.enterEnding_active {v : VoiceId} {k : Current} (s : State) (reason : EndReason)
    (ha : (s.voice v).state = .active) (hk : (s.voice v).current = some k) :
    s.enterEnding v reason =
      if ((s.voice v).rateStep.env.finalRelease (s.finalRate k.cue)).level = 0 then
        State.endToIdle
          ((s.putVoice v ((s.voice v).ending k (s.finalRate k.cue) reason)).freezeStream v k.cue.tag) v
      else (s.putVoice v ((s.voice v).ending k (s.finalRate k.cue) reason)).freezeStream v k.cue.tag := by
  simp only [State.enterEnding, Voice.rateStep_state, Voice.rateStep_current, ha, hk]
  rfl

theorem State.enterEnding_other {v : VoiceId} (s : State) (reason : EndReason)
    (h : (s.voice v).state ≠ .active ∨ (s.voice v).current = none) : s.enterEnding v reason = s := by
  simp only [State.enterEnding, Voice.rateStep_state, Voice.rateStep_current]
  split
  · rename_i k ha hk
    rcases h with h | h
    · exact absurd ha h
    · rw [hk] at h; cases h
  · rfl

/-- The reference of the call phrase is given up (R42 step 3). -/
theorem Works.releaseCall {v : VoiceId} {tag : Tag} {group : Nat} {s : State} {f : State → State}
    (h : Works v tag group s f) (p : Option Player) :
    Works v tag group s fun t => (f t).releaseCall p := by
  unfold State.releaseCall
  cases p.bind (·.call) with
  | none => exact h
  | some call => exact h.andThen (.refDown call.phrase) trivial

/-- The source of the cue with the tag at work is released (R42 step 4). -/
theorem Works.releaseSource {v : VoiceId} {tag : Tag} {group : Nat} {s : State} {f : State → State}
    (h : Works v tag group s f) (c : Cue) (hc : c.tag = tag) :
    Works v tag group s fun t => (f t).releaseSource c := by
  unfold State.releaseSource
  cases c.source with
  | phrase id => exact h.andThen (.refDown id) trivial
  | tone n d sh => exact h
  | noise n d => exact h
  | stream id => exact hc ▸ h.andThen .close trivial

theorem Voice.Fits.ending {tag : Tag} {group : Nat} {r : Voice} {k : Current} (h : r.Fits tag group) (hk : r.current = some k)
    (rate : Nat) (reason : EndReason) : (r.ending k rate reason).Fits tag group := fun k' hk' => by
  cases hk'
  exact h k hk

section Voice

variable {v : VoiceId} {tag : Tag} {group : Nat} {s : State} (hf : (s.voice v).Fits tag group)
include hf

theorem endCurrent_works : Works v tag group s fun t => t.endCurrent v := by
  cases hk : (s.voice v).current with
  | none =>
    refine Works.none.congr fun t _ hv => ?_
    simp only [State.endCurrent, hv, hk]
  | some k =>
    have ht : k.cue.tag = tag := (hf k hk).1
    have noted : Works v tag group s fun t =>
        (t.offer (.cueEnded tag (k.cue.endReason.getD .finished) (some v))).dropTag tag :=
      (Works.deed (.report _) trivial).andThen .drop trivial
    refine ((noted.releaseCall (s.voice v).player).releaseSource k.cue ht).congr fun t _ hv => ?_
    simp only [State.endCurrent, hv, hk, ht]

theorem endToIdle_works : Works v tag group s fun t => t.endToIdle v :=
  ((endCurrent_works hf).andThen (.put Voice.idle) (Voice.idle_fits tag group)).andThen .ask trivial

theorem enterEnding_works (reason : EndReason) : Works v tag group s fun t => t.enterEnding v reason := by
  by_cases ha : (s.voice v).state = .active
  · cases hk : (s.voice v).current with
    | none => exact Works.none.congr fun t _ hv => t.enterEnding_other reason (.inr (by rw [hv, hk]))
    | some k =>
      have ht : k.cue.tag = tag := (hf k hk).1
      have fits := Voice.Fits.ending hf hk (s.finalRate k.cue) reason
      have begun : Works v tag group s fun t =>
          (t.putVoice v ((s.voice v).ending k (s.finalRate k.cue) reason)).freezeStream v tag :=
        (Works.deed (.put _) fits).andThen .freeze trivial
      by_cases h0 : ((s.voice v).rateStep.env.finalRelease (s.finalRate k.cue)).level = 0
      · refine (begun.comp (endToIdle_works (begun.fits hf))).congr fun t hg hv => ?_
        rw [t.enterEnding_active reason (by rw [hv, ha]) (by rw [hv, hk]), hv, finalRate_of_basis hg, if_pos h0, ht]
      · refine begun.congr fun t hg hv => ?_
        rw [t.enterEnding_active reason (by rw [hv, ha]) (by rw [hv, hk]), hv, finalRate_of_basis hg, if_neg h0, ht]
  · exact Works.none.congr fun t _ hv => t.enterEnding_other reason (.inl (by rwa [hv]))

end Voice

end Sys2Proof.Machine
end

section
/-! The step player and the start of a cue as the work of one voice (R73 to R86, R131, R33). -/

namespace Sys2Proof.Machine

theorem Voice.Fits.player {r : Voice} {tag : Tag} {group : Nat} (h : r.Fits tag group) (p : Option Player) (env : Envelope) :
    Voice.Fits { r with player := p, env := env } tag group := h

/-- The step of a run is work whose answer, whether the run goes on, is fixed as well. -/
def Steps (v : VoiceId) (tag : Tag) (group : Nat) (s : State) (f : State → State × Bool) : Prop :=
  Works v tag group s (fun t => (f t).1) ∧ ∀ t, t.basis = s.basis → t.voice v = s.voice v → (f t).2 = (f s).2

section Player

variable {v : VoiceId} {tag : Tag} {group : Nat} {s : State}

theorem Works.steps {f : State → State} (h : Works v tag group s f) (b : Bool) : Steps v tag group s fun t => (f t, b) :=
  ⟨h, fun _ _ _ => rfl⟩

theorem Steps.congr {f g : State → State × Bool} (h : Steps v tag group s f)
    (e : ∀ t, t.basis = s.basis → t.voice v = s.voice v → g t = f t) : Steps v tag group s g :=
  ⟨h.1.congr fun t hg hv => by rw [e t hg hv], fun t hg hv => by rw [e t hg hv, e s rfl rfl, h.2 t hg hv]⟩

/-- A choice that reads the basis and the voice alone. -/
theorem Works.ite {c : State → Prop} [DecidablePred c] {f g : State → State}
    (hc : ∀ t, t.basis = s.basis → t.voice v = s.voice v → (c t ↔ c s)) (hf : c s → Works v tag group s f)
    (hg : ¬c s → Works v tag group s g) : Works v tag group s fun t => if c t then f t else g t := by
  by_cases h : c s
  · exact (hf h).congr fun t ht hv => if_pos ((hc t ht hv).mpr h)
  · exact (hg h).congr fun t ht hv => if_neg fun h' => h ((hc t ht hv).mp h')

/-- The step of a phrase at an index, where the phrase has one, is read from the basis. -/
theorem stepFound_of_basis {t : State} (h : t.basis = s.basis) (id : PhraseId) (i : Nat) :
    (if i < (t.phrase id).stepCount then t.store.stepAt (t.phrase id) i else none) =
      if i < (s.phrase id).stepCount then s.store.stepAt (s.phrase id) i else none := by
  rw [stepCount_of_basis h, stepAt_of_basis h]

variable (hf : (s.voice v).Fits tag group)
include hf

/-- A player and an envelope, read from the state, are written after other work. -/
theorem Works.putPlayer {f : State → State} (h : Works v tag group s f) (p : State → Player) (env : State → Envelope)
    (hp : ∀ t, t.basis = s.basis → t.voice v = s.voice v → p t = p s)
    (he : ∀ t, t.basis = s.basis → t.voice v = s.voice v → env t = env s) :
    Works v tag group s fun t => (f t).putPlayer v (p t) (env t) := by
  have fits := Voice.Fits.player (h.fits hf) (some (p s)) (env s)
  have written : Works v tag group (f s) fun t => t.putPlayer v (p s) (env s) := by
    refine (Works.deed (.put _) fits).congr fun t _ hv => ?_
    rw [State.putPlayer, hv]
    rfl
  refine (h.comp written).congr fun t hg hv => ?_
  rw [hp t hg hv, he t hg hv]

/-- A player, read from the state, is written with the envelope the voice has. -/
theorem putPlayer_works (p : State → Player) (env : State → Envelope)
    (hp : ∀ t, t.basis = s.basis → t.voice v = s.voice v → p t = p s)
    (he : ∀ t, t.basis = s.basis → t.voice v = s.voice v → env t = env s) :
    Works v tag group s fun t => t.putPlayer v (p t) (env t) :=
  Works.none.putPlayer hf p env hp he

theorem startRest_works (p : Player) (h : Header) (duration : Nat) :
    Works v tag group s fun t => t.startRest v p h duration := by
  unfold State.startRest
  exact putPlayer_works hf _ _ (fun t hg _ => by rw [time_of_basis hg]) fun t _ hv => by rw [hv]

theorem startNote_works (p : Player) (c : Cue) (h : Header) (note : Note) (duration volume gate : Nat) :
    Works v tag group s fun t => t.startNote v p c h note duration volume gate := by
  unfold State.startNote
  exact Works.ite (c := fun t => t.pitchMap[note] = 0) (fun t hg _ => by rw [pitchMap_of_basis hg])
    (fun _ => startRest_works hf p h duration) fun _ =>
      putPlayer_works hf _ _ (fun t hg _ => by rw [time_of_basis hg, pitchMap_of_basis hg]) fun t _ hv => by rw [hv]

theorem callReturn_works (p : Player) (call : CallPosition) (env : State → Envelope)
    (he : ∀ t, t.basis = s.basis → t.voice v = s.voice v → env t = env s) :
    Works v tag group s fun t => t.callReturn v p call (env t) :=
  (Works.deed (.refDown call.phrase) trivial).putPlayer hf _ env (fun _ _ _ => rfl) he

theorem newPass_works (p : Player) (top : TopPosition) (env : State → Envelope)
    (he : ∀ t, t.basis = s.basis → t.voice v = s.voice v → env t = env s) :
    Works v tag group s fun t => t.newPass v p top (env t) := by
  unfold State.newPass
  exact putPlayer_works hf _ env (fun t hg _ => by rw [theHeader_of_basis hg]) he

theorem takeCall_works (p : Player) (c : Cue) (target : PhraseId) (env : State → Envelope)
    (he : ∀ t, t.basis = s.basis → t.voice v = s.voice v → env t = env s) :
    Works v tag group s fun t => t.takeCall v p c target (env t) := by
  have next : Works v tag group s fun t => t.putPlayer v p.nextStep (env t) :=
    putPlayer_works hf _ env (fun _ _ _ => rfl) he
  have fault : ∀ k q, Works v tag group s fun t => (t.offer k).putPlayer v q (env t) := fun k q =>
    (Works.deed (.report k) trivial).putPlayer hf (fun _ => q) env (fun _ _ _ => rfl) he
  unfold State.takeCall
  cases hc : p.call with
  | none =>
    cases ht : p.top with
    | none => exact next
    | some top =>
      exact Works.ite (c := fun t => t.phraseReady target = true) (fun t hg _ => by rw [phraseReady_of_basis hg])
        (fun _ => (Works.deed (.refUp target) trivial).putPlayer hf _ _ (fun t hg _ => by rw [theHeader_of_basis hg])
          he) fun _ => fault _ _
  | some call =>
    cases ht : p.top with
    | none => exact next
    | some top =>
      by_cases hn : top.nestedFault = true
      · exact next.congr fun _ _ _ => if_pos hn
      · exact (fault _ _).congr fun _ _ _ => if_neg hn

theorem carryOut_steps (p : Player) (c : Cue) (st : Step) : Steps v tag group s fun t => t.carryOut v p c st := by
  have env : ∀ t : State, t.basis = s.basis → t.voice v = s.voice v → (t.voice v).env = (s.voice v).env :=
    fun t _ hv => by rw [hv]
  cases st with
  | note n d vol g =>
    refine ((startNote_works hf p c (s.stepHeader p c) n d vol g).steps false).congr fun t hg hv => ?_
    simp only [State.carryOut, stepHeader_of_basis hg]
  | rest d =>
    refine ((startRest_works hf p (s.stepHeader p c) d).steps false).congr fun t hg hv => ?_
    simp only [State.carryOut, stepHeader_of_basis hg]
  | shape sh => exact (putPlayer_works hf (fun _ => { p with shape := sh }.nextStep) _ (fun _ _ _ => rfl) env).steps true
  | mark value =>
    exact ((Works.deed (.report (.mark c.tag value)) trivial).putPlayer hf (fun _ => p.nextStep) _ (fun _ _ _ => rfl)
      env).steps true
  | call target => exact (takeCall_works hf p c target _ env).steps true

theorem endPass_steps (p : Player) (top : TopPosition) : Steps v tag group s fun t => t.endPass v p top := by
  have env : ∀ t : State, t.basis = s.basis → t.voice v = s.voice v → (t.voice v).env = (s.voice v).env :=
    fun t _ hv => by rw [hv]
  unfold State.endPass
  match p.repeatsLeft with
  | 0 => exact (newPass_works hf p top _ env).steps true
  | 1 =>
    have last := putPlayer_works hf (fun _ => p.lastStep) _ (fun _ _ _ => rfl) env
    exact (last.comp (enterEnding_works (last.fits hf) .finished)).steps false
  | n + 2 => exact (newPass_works hf { p with repeatsLeft := n + 1 } top _ env).steps true

omit hf in
/-- A run that finds no step to take (R73) does nothing. -/
theorem runOne_idle_steps (h : ∀ k p, (s.voice v).state = .active → (s.voice v).current = some k →
    (s.voice v).player ≠ some p) : Steps v tag group s fun t => t.runOne v := by
  refine (Works.none.steps false).congr fun t _ hv => ?_
  unfold State.runOne
  split
  · rename_i k p hs hk hp
    rw [hv] at hs hk hp
    exact absurd hp (h k p hs hk)
  · rfl

theorem runOne_steps : Steps v tag group s fun t => t.runOne v := by
  have env : ∀ t : State, t.basis = s.basis → t.voice v = s.voice v → (t.voice v).env = (s.voice v).env :=
    fun t _ hv => by rw [hv]
  by_cases hs : (s.voice v).state = .active
  swap
  · exact runOne_idle_steps fun k p h => absurd h hs
  cases hk : (s.voice v).current with
  | none => exact runOne_idle_steps fun k p _ h => by rw [hk] at h; cases h
  | some k =>
    cases hp : (s.voice v).player with
    | none => exact runOne_idle_steps fun k p _ _ h => by rw [hp] at h; cases h
    | some p =>
      cases hc : p.call with
      | some call =>
        cases hst : (if call.step < (s.phrase call.phrase).stepCount then s.store.stepAt (s.phrase call.phrase) call.step
          else none) with
        | some st =>
          refine (carryOut_steps hf p k.cue st).congr fun t hg hv => ?_
          simp only [State.runOne, hv, hs, hk, hp, hc, stepFound_of_basis hg, hst]
        | none =>
          refine ((callReturn_works hf p call _ env).steps true).congr fun t hg hv => ?_
          simp only [State.runOne, hv, hs, hk, hp, hc, stepFound_of_basis hg, hst]
      | none =>
        cases ht : p.top with
        | some top =>
          cases hst : (if top.step < (s.phrase top.phrase).stepCount then s.store.stepAt (s.phrase top.phrase) top.step
            else none) with
          | some st =>
            refine (carryOut_steps hf p k.cue st).congr fun t hg hv => ?_
            simp only [State.runOne, hv, hs, hk, hp, hc, ht, stepFound_of_basis hg, hst]
          | none =>
            refine (endPass_steps hf p top).congr fun t hg hv => ?_
            simp only [State.runOne, hv, hs, hk, hp, hc, ht, stepFound_of_basis hg, hst]
        | none =>
          refine ((enterEnding_works hf .finished).steps false).congr fun t _ hv => ?_
          simp only [State.runOne, hv, hs, hk, hp, hc, ht]

theorem run_works (n : Nat) : Works v tag group s fun t => State.run n v t := by
  induction n generalizing s with
  | zero => exact Works.none
  | succ n ih =>
    have one := runOne_steps hf
    cases hb : (s.runOne v).2 with
    | true =>
      refine (one.1.comp (ih (one.1.fits hf))).congr fun t hg hv => ?_
      simp only [State.run, (one.2 t hg hv).trans hb]
      rfl
    | false =>
      refine one.1.congr fun t hg hv => ?_
      simp only [State.run, (one.2 t hg hv).trans hb]
      rfl

/-! ### The start of a cue (R33, R75, R86, R131) -/

theorem startTone_works (c : Cue) (n : Note) (d : Nat) (sh : Shape) :
    Works v tag group s fun t => t.startTone v c n d sh := by
  have first := putPlayer_works hf (fun _ => Player.forNote sh (c.rates.getD { attack := 0, release := 4 }))
    (fun _ => Envelope.quiet) (fun _ _ _ => rfl) fun _ _ _ => rfl
  exact first.comp (startNote_works (first.fits hf) _ c _ n d 15 8)

theorem startPlayer_works (c : Cue) : Works v tag group s fun t => t.startPlayer v c := by
  unfold State.startPlayer
  cases c.source with
  | phrase id =>
    have first := putPlayer_works hf (fun t => Player.forPhrase id c.repeats (t.phrase id).theHeader)
      (fun _ => Envelope.quiet) (fun t hg _ => by rw [theHeader_of_basis hg]) fun _ _ _ => rfl
    exact first.comp (run_works (first.fits hf) _)
  | tone n d sh => exact startTone_works hf c n d sh
  | noise n d => exact startTone_works hf c n d .noise
  | stream id => exact Works.none

end Player

end Sys2Proof.Machine
end

section
/-! Streams under the work of voices, and the start, the choke and the immediate end of cues: what each leaves on the voices. -/

namespace Sys2Proof.Machine

/-! ### What a cue's stream holds -/

/-- The blocks a stream holds for the cue with this tag, where it is bound to it. -/
def OpenStream.heldFor (t : OpenStream) (x : Tag) : Option (List BlockId) :=
  if t.bound = some x then some t.filled else none

/-- The blocks held for the cue with this tag: its bound stream's filled list. -/
def State.flow (s : State) (x : Tag) : Option (List BlockId) :=
  allStreamSlots.findSome? fun i => (s.stream i).bind (·.heldFor x)

theorem State.flow_congr {s t : State} {x : Tag}
    (h : ∀ i, (t.stream i).bind (·.heldFor x) = (s.stream i).bind (·.heldFor x)) : t.flow x = s.flow x := by
  simp only [State.flow, h]

theorem State.flow_of_streams {s t : State} (h : t.streams = s.streams) (x : Tag) : t.flow x = s.flow x := by
  simp only [State.flow, State.stream, h]

theorem State.boundSlot_some {s : State} {y : Tag} {i : StreamSlotId} (h : s.boundSlot y = some i) :
    ∃ t, s.stream i = some t ∧ t.bound = some y := by
  unfold State.boundSlot at h
  have k := List.find?_some h
  obtain ⟨t, ht, hb⟩ := (Option.any_eq_true _ _).mp k
  exact ⟨t, ht, beq_iff_eq.mp hb⟩

theorem State.putStream_stream (s : State) (i j : StreamSlotId) (y : Option OpenStream) :
    (s.putStream i y).stream j = if i = j then y else s.stream j := by
  simp [State.putStream, State.stream, Vector.getElem_set, Fin.ext_iff]

theorem State.closeStream_stream (s : State) (i j : StreamSlotId) :
    (s.closeStream i).stream j = if i = j then none else s.stream j := by
  unfold State.closeStream
  split
  · rw [State.stream, State.credit_streams]
    exact State.putStream_stream { s with streams := s.streams.free _ } i j none
  · rename_i h
    split
    · rename_i e; subst e; exact h
    · rfl

/-- A slot rewritten with the same binding and the same blocks. -/
theorem State.putStream_flow {s : State} {i : StreamSlotId} {y : Option OpenStream} {x : Tag}
    (h : y.bind (·.heldFor x) = (s.stream i).bind (·.heldFor x)) : (s.putStream i y).flow x = s.flow x := by
  refine State.flow_congr fun j => ?_
  rw [State.putStream_stream]
  split
  · rename_i e; subst e; exact h
  · rfl

theorem State.closeBound_flow (s : State) {x y : Tag} (h : x ≠ y) : (s.closeBound y).flow x = s.flow x := by
  unfold State.closeBound
  split
  · rename_i i hi
    obtain ⟨t, ht, hb⟩ := State.boundSlot_some hi
    refine State.flow_congr fun j => ?_
    rw [State.closeStream_stream]
    split
    · rename_i e
      subst e
      simp [ht, OpenStream.heldFor, hb, Ne.symm h]
    · rfl
  · rfl

theorem State.freezeStream_flow (s : State) (v : VoiceId) (tag x : Tag) : (s.freezeStream v tag).flow x = s.flow x := by
  unfold State.freezeStream
  split
  · split
    · rename_i i hi
      refine State.putStream_flow ?_
      cases s.stream i <;> rfl
    · rfl
  · rfl

theorem State.playBound_flow (s : State) (tag x : Tag) : (s.playBound tag).flow x = s.flow x := by
  unfold State.playBound
  split
  · split
    · rename_i t ht
      refine State.putStream_flow ?_
      rw [ht]
      rfl
    · rfl
  · rfl

theorem Deed.carry_flow (v : VoiceId) (tag : Tag) (s : State) (d : Deed) {x : Tag} (h : x ≠ tag) :
    (d.carry v tag s).flow x = s.flow x := by
  cases d with
  | close => exact s.closeBound_flow h
  | play => exact s.playBound_flow tag x
  | freeze => exact s.freezeStream_flow v tag x
  | put r => exact State.flow_of_streams (s.putVoice_streams v r) x
  | _ => exact State.flow_of_streams rfl x

theorem Works.flow {v : VoiceId} {tag : Tag} {group : Nat} {s : State} {f : State → State} (h : Works v tag group s f)
    {x : Tag} (hx : x ≠ tag) : (f s).flow x = s.flow x := by
  obtain ⟨l, -, e⟩ := h.run
  rw [e]
  exact run_keeps (P := fun t => t.flow x = s.flow x) l (fun t d k => (d.carry_flow v tag t hx).trans k) s rfl

/-! ### The start of a cue (R33, R131) -/

theorem findSome_heldFor (f : StreamSlotId → Option OpenStream) (x : Tag) (l : List StreamSlotId) :
    (l.findSome? fun i => (f i).bind (·.heldFor x)) =
      ((l.find? fun i => (f i).any fun t => t.bound == some x).bind f).map fun t => t.filled := by
  induction l with
  | nil => rfl
  | cons i l ih =>
    rw [List.findSome?_cons, List.find?_cons, ih]
    cases hi : f i with
    | none => rfl
    | some t =>
      by_cases hb : t.bound = some x
      · simp [hb, OpenStream.heldFor, hi]
      · simp [beq_eq_false_iff_ne.mpr hb, hb, OpenStream.heldFor]

theorem State.flow_eq (s : State) (x : Tag) :
    s.flow x = ((s.boundSlot x).bind fun i => s.stream i).map fun t => t.filled :=
  findSome_heldFor (fun i => s.stream i) x allStreamSlots

/-- The start of a stream: it plays, and ends at once where it holds no block (R131). -/
theorem State.startStream_eq (s : State) (c : Cue) :
    s.startStream c =
      if s.flow c.tag = some [] then (s.playBound c.tag).enterEnding streamVoice .finished else s.playBound c.tag := by
  rw [State.flow_eq, State.startStream, State.playBound]
  cases s.boundSlot c.tag with
  | none => rfl
  | some i =>
    cases hi : s.stream i with
    | none => simp only [Option.bind_some, hi, Option.map_none, reduceCtorEq, if_false]
    | some t => simp only [Option.bind_some, hi, Option.map_some, Option.some.injEq]

/-- The record of a starting cue on its voice, and CUE_STARTED (R33, R38). -/
def State.onVoice (s : State) (v : VoiceId) (c : Cue) : State :=
  (s.putVoice v (Voice.starting v c s.now)).offer (.cueStarted c.tag v)

/-- What the start of a cue does on its own voice, before the choke (R33, R38). -/
def State.sound (s : State) (v : VoiceId) (c : Cue) : State :=
  if v = streamVoice then (s.onVoice v c).startStream c else (s.onVoice v c).startPlayer v c

theorem State.startCue_eq (s : State) (v : VoiceId) (c : Cue) : s.startCue v c = (s.sound v c).choke v c := rfl

theorem Voice.starting_fits (v : VoiceId) (c : Cue) (now : Tick) : (Voice.starting v c now).Fits c.tag c.group :=
  fun k hk => by cases hk; exact ⟨rfl, rfl⟩

/-- Work that follows the record of a starting cue does not depend on the record it replaces. -/
theorem Works.run_of_starting {s : State} {v : VoiceId} {c : Cue} {f : State → State}
    (h : Works v c.tag c.group (s.putVoice v (Voice.starting v c s.now)) f) :
    ∃ l : List Deed, (∀ d ∈ l, d.Fits c.tag c.group) ∧ ∀ t : State, t.basis = s.basis →
      f (t.putVoice v (Voice.starting v c t.now)) =
        l.foldl (Deed.carry v c.tag) (t.putVoice v (Voice.starting v c s.now)) := by
  obtain ⟨l, hl, h⟩ := h
  refine ⟨l, hl, fun t ht => ?_⟩
  rw [State.now, time_of_basis ht]
  refine h _ ?_ (by rw [State.putVoice_same, State.putVoice_same])
  rw [basis_of_ground (t.putVoice_ground v _), basis_of_ground (s.putVoice_ground v _), ht]

/-- The start of a cue is a run of deeds fixed by the basis and, on voice 6, by what its stream holds. -/
theorem State.sound_run (s : State) (v : VoiceId) (c : Cue) :
    ∃ l : List Deed, (∀ d ∈ l, d.Fits c.tag c.group) ∧
      ∀ t : State, t.basis = s.basis → (v = streamVoice → t.flow c.tag = s.flow c.tag) →
        t.sound v c = l.foldl (Deed.carry v c.tag) (t.putVoice v (Voice.starting v c s.now)) := by
  have fits : ((s.putVoice v (Voice.starting v c s.now)).voice v).Fits c.tag c.group := by
    rw [State.putVoice_same]
    exact Voice.starting_fits v c s.now
  have noted := Works.deed (v := v) (tag := c.tag) (group := c.group) (s := s.putVoice v (Voice.starting v c s.now))
    (.report (.cueStarted c.tag v)) trivial
  by_cases h6 : v = streamVoice
  · subst h6
    have played := noted.andThen .play trivial
    have kept : ∀ t : State, (t.onVoice streamVoice c).flow c.tag = t.flow c.tag := fun t =>
      State.flow_of_streams (t.putVoice_streams _ _) _
    by_cases he : s.flow c.tag = some []
    · obtain ⟨l, hl, h⟩ := (played.comp (enterEnding_works (played.fits fits) .finished)).run_of_starting
      refine ⟨l, hl, fun t ht hflow => (Eq.trans ?_ (h t ht))⟩
      rw [State.sound, if_pos rfl, State.startStream_eq, kept, hflow rfl, if_pos he]
      rfl
    · obtain ⟨l, hl, h⟩ := played.run_of_starting
      refine ⟨l, hl, fun t ht hflow => (Eq.trans ?_ (h t ht))⟩
      rw [State.sound, if_pos rfl, State.startStream_eq, kept, hflow rfl, if_neg he]
      rfl
  · obtain ⟨l, hl, h⟩ := (noted.comp (startPlayer_works (noted.fits fits) c)).run_of_starting
    refine ⟨l, hl, fun t ht _ => (Eq.trans ?_ (h t ht))⟩
    rw [State.sound, if_neg h6]
    rfl

section Sound

variable (s : State) (v : VoiceId) (c : Cue)

/-- The start of a cue keeps what every deed on its voice keeps. -/
theorem State.sound_run_self : ∃ l : List Deed, (∀ d ∈ l, d.Fits c.tag c.group) ∧
    s.sound v c = l.foldl (Deed.carry v c.tag) (s.putVoice v (Voice.starting v c s.now)) := by
  obtain ⟨l, hl, h⟩ := s.sound_run v c
  exact ⟨l, hl, h s rfl fun _ => rfl⟩

@[simp] theorem State.sound_ground : (s.sound v c).ground = s.ground := by
  obtain ⟨l, -, e⟩ := s.sound_run_self v c
  rw [e, run_ground, State.putVoice_ground]

@[simp] theorem State.sound_entries : (s.sound v c).sched.entries = s.sched.entries := by
  obtain ⟨l, -, e⟩ := s.sound_run_self v c
  rw [e, run_entries, State.putVoice_sched]

theorem State.sound_not_live {x : Tag} (h : x ∉ s.sched.live) : x ∉ (s.sound v c).sched.live := by
  obtain ⟨l, -, e⟩ := s.sound_run_self v c
  rw [e]
  exact run_not_live l _ (by rwa [State.putVoice_sched])

theorem State.sound_voice_other {u : VoiceId} (h : u ≠ v) : (s.sound v c).voice u = s.voice u := by
  obtain ⟨l, -, e⟩ := s.sound_run_self v c
  rw [e, run_voice_other l h, State.putVoice_other s v u _ h]

theorem State.sound_fits : ((s.sound v c).voice v).Fits c.tag c.group := by
  obtain ⟨l, hl, e⟩ := s.sound_run_self v c
  rw [e]
  exact run_fits l hl _ (by rw [State.putVoice_same]; exact Voice.starting_fits v c s.now)

theorem State.sound_flow {x : Tag} (h : x ≠ c.tag) : (s.sound v c).flow x = s.flow x := by
  obtain ⟨l, -, e⟩ := s.sound_run_self v c
  rw [e]
  exact run_keeps (P := fun t => t.flow x = s.flow x) l (fun t d k => (d.carry_flow v c.tag t h).trans k) _
    (State.flow_of_streams (s.putVoice_streams v _) x)

/-- The record of a started cue, from any state on the same basis in which its stream holds the same. -/
theorem State.sound_voice_congr {s t : State} (v : VoiceId) (c : Cue) (hg : t.basis = s.basis)
    (hflow : v = streamVoice → t.flow c.tag = s.flow c.tag) : (t.sound v c).voice v = (s.sound v c).voice v := by
  obtain ⟨l, -, h⟩ := s.sound_run v c
  rw [h t hg hflow, h s rfl fun _ => rfl]
  exact run_voice_congr l (by rw [State.putVoice_same, State.putVoice_same])

end Sound

end Sys2Proof.Machine
end

section
/-! Entry to ENDING, the choke of a group and the immediate end of a cue on any voice: what they keep, and the records they
leave. -/

namespace Sys2Proof.Machine

/-- No current cue of any voice has this tag. -/
def State.Clear (s : State) (x : Tag) : Prop :=
  ∀ u k, (s.voice u).current = some k → k.cue.tag ≠ x

/-- What is kept by the work of voices on other cues: the ground, the entries, the tags that are not live, and, for a tag of no
current cue, what its stream holds. -/
structure State.Spares (s t : State) : Prop where
  ground : t.ground = s.ground
  entries : t.sched.entries = s.sched.entries
  not_live : ∀ x, x ∉ s.sched.live → x ∉ t.sched.live
  clear : ∀ x, s.Clear x → t.Clear x ∧ t.flow x = s.flow x

namespace State.Spares

variable {s t u : State}

theorem refl (s : State) : s.Spares s :=
  ⟨rfl, rfl, fun _ h => h, fun _ h => ⟨h, rfl⟩⟩

theorem trans (h : s.Spares t) (k : t.Spares u) : s.Spares u where
  ground := k.ground.trans h.ground
  entries := k.entries.trans h.entries
  not_live x hx := k.not_live x (h.not_live x hx)
  clear x hx := by
    obtain ⟨ht, hf⟩ := h.clear x hx
    obtain ⟨hu, hg⟩ := k.clear x ht
    exact ⟨hu, hg.trans hf⟩

/-- The work of a voice on the cue it holds. -/
theorem of_works {v : VoiceId} {k : Current} {group : Nat} {f : State → State} (hk : (s.voice v).current = some k)
    (h : Works v k.cue.tag group s f) (hf : (s.voice v).Fits k.cue.tag group) : s.Spares (f s) where
  ground := h.ground
  entries := h.entries
  not_live _ hx := h.not_live hx
  clear x hx := by
    refine ⟨fun u j hj => ?_, h.flow (Ne.symm (hx v k hk))⟩
    by_cases hu : u = v
    · subst hu
      rw [(h.fits hf j hj).1]
      exact hx u k hk
    · rw [h.voice_other hu] at hj
      exact hx u j hj

end State.Spares

theorem Voice.fits_own {r : Voice} {k : Current} (h : r.current = some k) : r.Fits k.cue.tag k.cue.group := fun j hj => by
  cases h.symm.trans hj
  exact ⟨rfl, rfl⟩

/-! ### Entry to ENDING (R41) -/

theorem State.enterEnding_spares (s : State) (v : VoiceId) (reason : EndReason) : s.Spares (s.enterEnding v reason) := by
  cases hk : (s.voice v).current with
  | none => rw [s.enterEnding_other reason (.inr hk)]; exact .refl s
  | some k => exact .of_works hk (enterEnding_works (Voice.fits_own hk) reason) (Voice.fits_own hk)

theorem State.enterEnding_voice_other (s : State) {u v : VoiceId} (reason : EndReason) (h : u ≠ v) :
    (s.enterEnding v reason).voice u = s.voice u := by
  cases hk : (s.voice v).current with
  | none => rw [s.enterEnding_other reason (.inr hk)]
  | some k => exact (enterEnding_works (Voice.fits_own hk) reason).voice_other h

theorem State.enterEnding_voice_congr {s t : State} {v : VoiceId} (reason : EndReason) (hg : t.basis = s.basis)
    (hv : t.voice v = s.voice v) : (t.enterEnding v reason).voice v = (s.enterEnding v reason).voice v := by
  cases hk : (s.voice v).current with
  | none => rw [s.enterEnding_other reason (.inr hk), t.enterEnding_other reason (.inr (by rw [hv, hk])), hv]
  | some k => exact (enterEnding_works (Voice.fits_own hk) reason).voice_congr hg hv

theorem State.endToIdle_voice (s : State) (v : VoiceId) : (s.endToIdle v).voice v = Voice.idle :=
  (s.endCurrent v).putVoice_same v Voice.idle

/-- A cue that has entered ENDING is not PLAYING any more. -/
theorem State.enterEnding_not_active {s : State} {v : VoiceId} {k : Current} (reason : EndReason)
    (hk : (s.voice v).current = some k) : ((s.enterEnding v reason).voice v).state ≠ .active := by
  by_cases ha : (s.voice v).state = .active
  · rw [s.enterEnding_active reason ha hk]
    split
    · rw [State.endToIdle_voice]
      decide
    · rw [State.voice, (State.freezeStream_parts _ v _).1, ← State.voice, State.putVoice_same]
      exact fun h => by cases h
  · rw [s.enterEnding_other reason (.inl ha)]
    exact ha

/-! ### The choke of a group (R45) -/

theorem Voice.chokedBy_iff (r : Voice) (g : Nat) :
    r.chokedBy g = true ↔ r.state = .active ∧ ∃ k, r.current = some k ∧ k.cue.group = g := by
  unfold Voice.chokedBy
  split
  · rename_i k hs hk
    simp [hs, hk]
  · rename_i h
    exact ⟨fun h' => Bool.noConfusion h', fun ⟨hs, k, hk, _⟩ => (h k hs hk).elim⟩

theorem State.chokeVoice_spares (s : State) (g : Nat) (v : VoiceId) : s.Spares (s.chokeVoice g v) := by
  unfold State.chokeVoice
  split
  · exact s.enterEnding_spares v .choked
  · exact .refl s

theorem State.chokeVoice_voice_other (s : State) (g : Nat) {u v : VoiceId} (h : u ≠ v) :
    (s.chokeVoice g v).voice u = s.voice u := by
  unfold State.chokeVoice
  split
  · exact s.enterEnding_voice_other .choked h
  · rfl

/-- The chokes of a list of voices: each is choked where the choke reaches it, as the state stood before. -/
theorem State.chokeVoices (g : Nat) (l : List VoiceId) (hl : l.Nodup) (s : State) :
    s.Spares (l.foldl (fun s u => s.chokeVoice g u) s) ∧
      ∀ u, (l.foldl (fun s u => s.chokeVoice g u) s).voice u =
        if u ∈ l ∧ (s.voice u).chokedBy g = true then (s.enterEnding u .choked).voice u else s.voice u := by
  induction l generalizing s with
  | nil => exact ⟨.refl s, fun u => (if_neg (by simp)).symm⟩
  | cons w l ih =>
    obtain ⟨hw, hl⟩ := List.nodup_cons.mp hl
    obtain ⟨hs, hv⟩ := ih hl (s.chokeVoice g w)
    refine ⟨(s.chokeVoice_spares g w).trans hs, fun u => ?_⟩
    rw [List.foldl_cons, hv]
    by_cases hu : u = w
    · subst hu
      rw [if_neg fun h => hw h.1, State.chokeVoice]
      simp only [List.mem_cons_self, true_and]
      split <;> rfl
    · have same := s.chokeVoice_voice_other g hu
      rw [same, State.enterEnding_voice_congr .choked (basis_of_ground (s.chokeVoice_spares g w).ground) same]
      simp only [List.mem_cons, hu, false_or]

theorem allVoices_nodup : allVoices.Nodup := by decide

/-- The choke of an exclusive cue, voice by voice (R45). -/
theorem State.choke_spec (s : State) (v : VoiceId) (c : Cue) :
    s.Spares (s.choke v c) ∧
      ∀ u, (s.choke v c).voice u =
        if u ≠ v ∧ (c.exclusive = true ∧ c.group ≠ 0) ∧ (s.voice u).chokedBy c.group = true then
          (s.enterEnding u .choked).voice u
        else s.voice u := by
  unfold State.choke
  split
  · rename_i h
    obtain ⟨hs, hv⟩ := State.chokeVoices c.group (allVoices.filter (· ≠ v)) (allVoices_nodup.filter _) s
    refine ⟨hs, fun u => (hv u).trans (if_congr ?_ rfl rfl)⟩
    simp [List.mem_filter, mem_allVoices, h]
  · rename_i h
    exact ⟨.refl s, fun u => (if_neg fun k => h k.2.1).symm⟩

/-- The start of a cue, with its choke: the ground, the entries and the tags that are not live are kept, and so is, of a tag no
current cue has, what its stream holds. -/
theorem State.startCue_keeps (s : State) (v : VoiceId) (c : Cue) :
    (s.startCue v c).ground = s.ground ∧ (s.startCue v c).sched.entries = s.sched.entries ∧
      (∀ x, x ∉ s.sched.live → x ∉ (s.startCue v c).sched.live) ∧
      ∀ x, x ≠ c.tag → (∀ u k, u ≠ v → (s.voice u).current = some k → k.cue.tag ≠ x) →
        (s.startCue v c).Clear x ∧ (s.startCue v c).flow x = s.flow x := by
  have h := ((s.sound v c).choke_spec v c).1
  rw [State.startCue_eq]
  refine ⟨h.ground.trans (s.sound_ground v c), h.entries.trans (s.sound_entries v c),
    fun x hx => h.not_live x (s.sound_not_live v c hx), fun x hx hc => ?_⟩
  have clear : (s.sound v c).Clear x := by
    intro u k hk
    by_cases hu : u = v
    · subst hu
      rw [(s.sound_fits u c k hk).1]
      exact Ne.symm hx
    · rw [s.sound_voice_other v c hu] at hk
      exact hc u k hu hk
  obtain ⟨k, kf⟩ := h.clear x clear
  exact ⟨k, kf.trans (s.sound_flow v c hx)⟩

/-- The voices after the start of a cue: its own holds what its start left, and the others what the choke left (R33, R45). -/
theorem State.startCue_voice (s : State) (v : VoiceId) (c : Cue) :
    (s.startCue v c).voice v = (s.sound v c).voice v ∧
      ∀ u, u ≠ v → (s.startCue v c).voice u =
        if (c.exclusive = true ∧ c.group ≠ 0) ∧ (s.voice u).chokedBy c.group = true then (s.enterEnding u .choked).voice u
        else s.voice u := by
  obtain ⟨-, h⟩ := (s.sound v c).choke_spec v c
  rw [State.startCue_eq]
  refine ⟨(h v).trans (if_neg fun k => k.1 rfl), fun u hu => ?_⟩
  have same := s.sound_voice_other v c hu
  rw [h u, same, State.enterEnding_voice_congr .choked (basis_of_ground (s.sound_ground v c)) same]
  simp only [ne_eq, hu, not_false_eq_true, true_and]

/-! ### The end of a current cue (R42) and its immediate end (R40, R43) -/

section EndCurrent

variable {s : State} {v : VoiceId} {k : Current} (hk : (s.voice v).current = some k)
include hk

theorem State.endCurrent_live (x : Tag) (hx : x ∉ s.sched.live ∨ x = k.cue.tag) : x ∉ (s.endCurrent v).sched.live := by
  have left : (s.endCurrent v).sched.live = s.sched.live.filter (· != k.cue.tag) := by
    simp only [State.endCurrent, hk, State.releaseSource_sched, State.releaseCall_sched]
    rfl
  rw [left, List.mem_filter]
  rcases hx with hx | rfl
  · exact fun h => hx h.1
  · simp

theorem State.endCurrent_ground : (s.endCurrent v).ground = s.ground :=
  (endCurrent_works (Voice.fits_own hk)).ground

theorem State.endCurrent_flow {x : Tag} (hx : x ≠ k.cue.tag) : (s.endCurrent v).flow x = s.flow x :=
  (endCurrent_works (Voice.fits_own hk)).flow hx

end EndCurrent

theorem State.endCurrent_voice (s : State) (u v : VoiceId) : (s.endCurrent v).voice u = s.voice u := by
  rw [State.voice, State.endCurrent_alloc]

/-- A cue ended at once, up to the emptying of its place (R40, R43). -/
def State.vacated (s : State) (v : VoiceId) (reason : EndReason) : State :=
  (s.putVoice v ((s.voice v).endingAtOnce reason)).endCurrent v

section Vacated

variable {s : State} {v : VoiceId} {k : Current} (reason : EndReason) (hk : (s.voice v).current = some k)
include hk

theorem Voice.endingAtOnce_current : ∃ j, ((s.voice v).endingAtOnce reason).current = some j ∧ j.cue.tag = k.cue.tag := by
  unfold Voice.endingAtOnce
  dsimp only
  split
  · exact ⟨k.withReason reason, by rw [hk]; rfl, rfl⟩
  · exact ⟨k, hk, rfl⟩

theorem State.vacated_keeps :
    (s.vacated v reason).ground = s.ground ∧ (s.vacated v reason).sched.entries = s.sched.entries ∧
      (∀ x, x ∉ s.sched.live ∨ x = k.cue.tag → x ∉ (s.vacated v reason).sched.live) ∧
      (∀ x, x ≠ k.cue.tag → (s.vacated v reason).flow x = s.flow x) ∧
      ∀ u, u ≠ v → (s.vacated v reason).voice u = s.voice u := by
  obtain ⟨j, hj, htag⟩ := Voice.endingAtOnce_current reason hk
  have hj' : ((s.putVoice v ((s.voice v).endingAtOnce reason)).voice v).current = some j := by
    rwa [State.putVoice_same]
  refine ⟨(State.endCurrent_ground hj').trans (s.putVoice_ground v _), ?_, fun x hx => ?_, fun x hx => ?_, fun u hu => ?_⟩
  · rw [State.vacated, State.endCurrent_entries, State.putVoice_sched]
  · exact State.endCurrent_live hj' x (by rwa [State.putVoice_sched, htag])
  · exact (State.endCurrent_flow hj' (htag ▸ hx)).trans (State.flow_of_streams (s.putVoice_streams v _) x)
  · rw [State.vacated, State.endCurrent_voice, State.putVoice_other s v u _ hu]

/-- The immediate end of a cue on a voice with no incoming cue. -/
theorem State.endAtOnce_idle (hi : (s.voice v).incoming = none) :
    s.endAtOnce v reason = ((s.vacated v reason).putVoice v Voice.idle).askPass := by
  have hi' : ((s.putVoice v ((s.voice v).endingAtOnce reason)).voice v).incoming = none := by
    rw [State.putVoice_same]
    exact hi
  rw [State.endAtOnce, if_pos (by rw [hk]; rfl), State.handOver]
  simp only [hi']
  rfl

/-- The immediate end of the departing cue of a HANDOFF voice. -/
theorem State.endAtOnce_starts {c : Cue} (hi : (s.voice v).incoming = some c) :
    s.endAtOnce v reason = (s.vacated v reason).startCue v c := by
  have hi' : ((s.putVoice v ((s.voice v).endingAtOnce reason)).voice v).incoming = some c := by
    rw [State.putVoice_same]
    exact hi
  rw [State.endAtOnce, if_pos (by rw [hk]; rfl), State.handOver]
  simp only [hi']
  rfl

/-- The immediate end of a current cue keeps the ground and the entries, its tag is not live after it, and of a tag that no current
cue has, nor the incoming cue of its voice, what its stream holds is kept. -/
theorem State.endAtOnce_keeps :
    (s.endAtOnce v reason).ground = s.ground ∧ (s.endAtOnce v reason).sched.entries = s.sched.entries ∧
      k.cue.tag ∉ (s.endAtOnce v reason).sched.live ∧
      ∀ x, s.Clear x → (∀ c, (s.voice v).incoming = some c → x ≠ c.tag) →
        (s.endAtOnce v reason).Clear x ∧ (s.endAtOnce v reason).flow x = s.flow x := by
  obtain ⟨hg, he, hl, hf, hv⟩ := State.vacated_keeps reason hk
  have others : ∀ x, s.Clear x → ∀ u j, u ≠ v → ((s.vacated v reason).voice u).current = some j → j.cue.tag ≠ x :=
    fun x hx u j hu hj => hx u j (by rwa [hv u hu] at hj)
  cases hi : (s.voice v).incoming with
  | none =>
    rw [State.endAtOnce_idle reason hk hi]
    have flow : ∀ x, (((s.vacated v reason).putVoice v Voice.idle).askPass).flow x = (s.vacated v reason).flow x := fun x =>
      State.flow_of_streams (by simp) x
    refine ⟨by simp [hg], by simp [he], by simpa using hl _ (.inr rfl), fun x hx _ => ⟨fun u j hj => ?_, ?_⟩⟩
    · have hj : (((s.vacated v reason).putVoice v Voice.idle).voice u).current = some j := hj
      by_cases hu : u = v
      · subst hu
        rw [State.putVoice_same] at hj
        cases hj
      · rw [State.putVoice_other _ v u _ hu] at hj
        exact others x hx u j hu hj
    · rw [flow, hf x (Ne.symm (hx v k hk))]
  | some c =>
    rw [State.endAtOnce_starts reason hk hi]
    obtain ⟨kg, ke, kl, kf⟩ := (s.vacated v reason).startCue_keeps v c
    refine ⟨kg.trans hg, ke.trans he, kl _ (hl _ (.inr rfl)), fun x hx hc => ?_⟩
    obtain ⟨h1, h2⟩ := kf x (hc c rfl) (others x hx)
    exact ⟨h1, h2.trans (hf x (Ne.symm (hx v k hk)))⟩

/-- The voices after the immediate end of a cue with no incoming cue behind it. -/
theorem State.endAtOnce_idle_voice (hi : (s.voice v).incoming = none) :
    (s.endAtOnce v reason).voice v = Voice.idle ∧ ∀ u, u ≠ v → (s.endAtOnce v reason).voice u = s.voice u := by
  obtain ⟨-, -, -, -, hv⟩ := State.vacated_keeps reason hk
  rw [State.endAtOnce_idle reason hk hi]
  exact ⟨(s.vacated v reason).putVoice_same v Voice.idle,
    fun u hu => ((s.vacated v reason).putVoice_other v u Voice.idle hu).trans (hv u hu)⟩

/-- The voices after the immediate end of a departing cue: the incoming one has started, and chokes the others (R40, R45). -/
theorem State.endAtOnce_starts_voice {c : Cue} (hi : (s.voice v).incoming = some c) (hne : c.tag ≠ k.cue.tag) :
    (s.endAtOnce v reason).voice v = (s.sound v c).voice v ∧
      ∀ u, u ≠ v → (s.endAtOnce v reason).voice u =
        if (c.exclusive = true ∧ c.group ≠ 0) ∧ (s.voice u).chokedBy c.group = true then (s.enterEnding u .choked).voice u
        else s.voice u := by
  obtain ⟨hg, -, -, hf, hv⟩ := State.vacated_keeps reason hk
  obtain ⟨own, other⟩ := (s.vacated v reason).startCue_voice v c
  rw [State.endAtOnce_starts reason hk hi]
  refine ⟨own.trans (State.sound_voice_congr v c (basis_of_ground hg) fun _ => hf c.tag hne), fun u hu => ?_⟩
  have same := State.enterEnding_voice_congr .choked (basis_of_ground hg) (hv u hu)
  rw [other u hu, same, hv u hu]

end Vacated

end Sys2Proof.Machine
end

section
/-! The firing of triggers: how a slot's template is offered, and what makes way for it under RESTART (R147 to R151). -/

namespace Sys2Proof.Machine

/-! ### The offer of a template whose tag is free (R148) -/

/-- The phrase of a template, where its source is one, is READY. -/
def State.ReadyFor (s : State) (t : Template) : Prop := ∀ id, t.source = .phrase id → (s.phrase id).state = .ready

/-- The state with a cue of this template accepted, its source no stream (R17). -/
def State.admitted (s : State) (t : Template) : State :=
  { s with
    sched :=
      { entries := insertEntry { cue := s.newCue t, state := .scheduled } s.sched.entries
        live := s.sched.live ++ [t.tag]
        counter := s.sched.counter + 1 }
    store :=
      (match t.source with
        | .phrase id =>
          { s.store with slots := s.store.slots.set id { s.phrase id with refs := (s.phrase id).refs + 1 } }
        | _ => s.store) }

theorem State.accept_eq_admitted {s : State} {t : Template} (hst : ∀ id, t.source ≠ .stream id) :
    s.accept t = s.admitted t := by
  rw [State.accept_eq, State.holdSource, State.newCue_source, State.admitted]
  cases hs : t.source with
  | stream id => exact absurd hs (hst id)
  | _ => rfl

section Offer

variable {s : State} {t : Template} (hl : t.tag ∉ s.sched.live) (hst : ∀ id, t.source ≠ .stream id)
  (hrates : (∃ id, t.source = .phrase id) → t.rates = none)
include hl hst hrates

omit hst in
theorem State.playRefusal_notReady (h : ¬s.ReadyFor t) : s.playRefusal t = some (refuse .notReady) := by
  obtain ⟨id, hs, hn⟩ : ∃ id, t.source = .phrase id ∧ (s.phrase id).state ≠ .ready := by
    simpa only [State.ReadyFor, not_forall, exists_prop] using h
  rw [State.playRefusal_phrase hl hs, hrates ⟨id, hs⟩, if_neg hn]
  rfl

theorem State.playRefusal_ready (h : s.ReadyFor t) : s.playRefusal t = s.roomRefusal := by
  by_cases hp : ∃ id, t.source = .phrase id
  · obtain ⟨id, hs⟩ := hp
    rw [State.playRefusal_phrase hl hs, hrates ⟨id, hs⟩, if_pos (h id hs)]
    rfl
  · exact State.playRefusal_pitched hl (fun id hs => hp ⟨id, hs⟩) hst

omit hst in
theorem State.fireTemplate_notReady (i : TriggerId) (h : ¬s.ReadyFor t) :
    s.fireTemplate i t = s.offer (.triggerRefused i t.tag .notReady) := by
  rw [State.fireTemplate, State.playRefusal_notReady hl hrates h]
  rfl

theorem State.fireTemplate_full (i : TriggerId) (h : s.ReadyFor t) (hn : 48 ≤ s.sched.entries.length) :
    s.fireTemplate i t = s.offer (.triggerRefused i t.tag .scheduleFull) := by
  have full : s.roomRefusal = some (refuse .scheduleFull) := if_neg (Nat.not_lt.mpr hn)
  rw [State.fireTemplate, State.playRefusal_ready hl hst hrates h, full]
  rfl

theorem State.fireTemplate_accepted (i : TriggerId) (h : s.ReadyFor t) (hn : s.sched.entries.length < 48) :
    s.fireTemplate i t = (s.admitted t).offer (.triggerFired i t.tag) := by
  have room : s.roomRefusal = none := if_pos hn
  rw [State.fireTemplate, State.playRefusal_ready hl hst hrates h, room]
  exact congrArg (State.offer · (.triggerFired i t.tag)) (State.accept_eq_admitted hst)

/-- The offer of a template, by the first condition that fails (R148, R149). -/
theorem State.fireTemplate_outcome (i : TriggerId) {u : State} (e : u = s.fireTemplate i t) :
    (¬s.ReadyFor t → u = s.offer (.triggerRefused i t.tag .notReady)) ∧
      (s.ReadyFor t → 48 ≤ s.sched.entries.length → u = s.offer (.triggerRefused i t.tag .scheduleFull)) ∧
      (s.ReadyFor t → s.sched.entries.length < 48 → u = (s.admitted t).offer (.triggerFired i t.tag)) :=
  ⟨fun h => e.trans (State.fireTemplate_notReady hl hrates i h),
    fun h hn => e.trans (State.fireTemplate_full hl hst hrates i h hn),
    fun h hn => e.trans (State.fireTemplate_accepted hl hst hrates i h hn)⟩

end Offer

/-! ### What makes way for the template (R150) -/

theorem State.retire_live (s : State) (c : Cue) (reason : EndReason) (voice : Option VoiceId) :
    (s.retire c reason voice).sched.live = s.sched.live.filter (· != c.tag) := by
  rw [State.retire, State.releaseSource_sched]
  rfl

theorem State.removeEntry_dead {s : State} {e : Entry} (he : e ∈ s.sched.entries) (reason : EndReason) :
    e.cue.tag ∉ (s.removeEntry e.cue.tag reason).sched.live := by
  have found : (s.sched.entries.find? fun x => x.cue.tag == e.cue.tag).isSome :=
    List.find?_isSome.mpr ⟨e, he, beq_self_eq_true _⟩
  obtain ⟨x, hx⟩ := Option.isSome_iff_exists.mp found
  have ht : x.cue.tag = e.cue.tag := by simpa using List.find?_some hx
  simp only [State.removeEntry, hx, State.retire_live, ht, List.mem_filter, bne_self_eq_false, and_false, not_false_eq_true,
    Bool.false_eq_true]

theorem State.removeIncoming_dead {s : State} {v : VoiceId} {c : Cue} (hc : (s.voice v).incoming = some c)
    (reason : EndReason) : c.tag ∉ (s.removeIncoming v reason).sched.live := by
  simp only [State.removeIncoming, hc, State.retire_live, List.mem_filter, bne_self_eq_false, and_false, not_false_eq_true,
    Bool.false_eq_true]

/-- A live cue ended for a retrigger, by its place, and its tag, free after it. -/
theorem State.endLive_entry {s : State} (hs : s.TagsOk) {e : Entry} (he : e ∈ s.sched.entries) (reason : EndReason) :
    s.endLive e.cue.tag reason = s.removeEntry e.cue.tag reason := by
  simp only [State.endLive, State.place_of_held (hs.claims_le _) (p := .entry e) ⟨he, rfl⟩]

theorem State.endLive_incoming {s : State} (hs : s.TagsOk) {v : VoiceId} {c : Cue} (hc : (s.voice v).incoming = some c)
    (reason : EndReason) : s.endLive c.tag reason = s.removeIncoming v reason := by
  simp only [State.endLive, State.place_of_held (hs.claims_le _) (p := .incoming v c) ⟨hc, rfl⟩]

theorem State.endLive_current {s : State} (hs : s.TagsOk) {v : VoiceId} {k : Current} (hk : (s.voice v).current = some k)
    (reason : EndReason) : s.endLive k.cue.tag reason = s.endAtOnce v reason := by
  simp only [State.endLive, State.place_of_held (hs.claims_le _) (p := .current v k) ⟨hk, rfl⟩]

/-! ### The service of a slot (R147, R149, R151) -/

theorem Armed.fires_iff (a : Armed) (line : TrgLine) (rising : Bool) :
    a.fires line rising = true ↔
      a.line = line ∧ (a.edge = .both ∨ (a.edge = .fall ∧ rising = false) ∨ (a.edge = .rise ∧ rising = true)) := by
  unfold Armed.fires
  cases a.edge <;> simp

section Service

variable {s : State} {line : TrgLine} {rising : Bool} {i : TriggerId}

theorem State.serveTrigger_empty (h : s.triggers.slots[i] = none) : s.serveTrigger line rising i = s := by
  simp only [State.serveTrigger, h]

variable {a : Armed} (ha : s.triggers.slots[i] = some a)
include ha

theorem State.serveTrigger_silent (h : ¬a.fires line rising = true) : s.serveTrigger line rising i = s := by
  simp only [State.serveTrigger, ha]
  exact if_neg h

theorem State.serveTrigger_fires (h : a.fires line rising = true) :
    s.serveTrigger line rising i =
      if a.mode = .once then (s.fireSlot i a).putTrigger i none else s.fireSlot i a := by
  simp only [State.serveTrigger, ha]
  exact if_pos h

end Service

theorem State.fireSlot_free {s : State} {i : TriggerId} {a : Armed} (h : a.template.tag ∉ s.sched.live) :
    s.fireSlot i a = s.fireTemplate i a.template := by
  simp [State.fireSlot, State.not_isLive h]

theorem State.fireSlot_ignore {s : State} {i : TriggerId} {a : Armed} (h : a.template.tag ∈ s.sched.live)
    (hp : a.policy = .ignore) : s.fireSlot i a = s.offer (.triggerRefused i a.template.tag .busy) := by
  simp [State.fireSlot, State.isLive, h, hp]

theorem State.fireSlot_restart {s : State} {i : TriggerId} {a : Armed} (h : a.template.tag ∈ s.sched.live)
    (hp : a.policy = .restart) :
    s.fireSlot i a = (s.endLive a.template.tag .retriggered).fireTemplate i a.template := by
  simp [State.fireSlot, State.isLive, h, hp]

/-- Settles O44. -/
theorem firingServesSlots : Obligations.FiringServesSlots := by
  refine ⟨fun s rising hr => ⟨fun he => ?_, fun he => ?_⟩, State.dueOwn_eq, fun s line rising i =>
    ⟨State.serveTrigger_empty, fun a ha => ?_⟩⟩
  · have run : exec (.firingEvent .trg0) s = s.event (.firing .trg0) := rfl
    rw [run, event_stands s (.firing .trg0) hr (by simp [State.stands, TriggerUnit.lineOf, he])]
    simp only [State.carry, State.fire, TriggerUnit.lineOf, he]
    rfl
  · have run : exec (.firingEvent .trg1) s = s.event (.firing .trg1) := rfl
    rw [run, event_stands s (.firing .trg1) hr (by simp [State.stands, TriggerUnit.lineOf, he])]
    simp only [State.carry, State.fire, TriggerUnit.lineOf, he]
    rfl
  · dsimp only
    rw [← a.fires_iff]
    refine ⟨State.serveTrigger_silent ha, fun hf hst hrates => ?_⟩
    rw [State.serveTrigger_fires ha hf]
    refine ⟨fun hl => ⟨_, State.fireTemplate_outcome hl hst hrates i (State.fireSlot_free hl), rfl⟩, fun hl hp => ?_,
      fun hl hp hs => ?_⟩
    · rw [State.fireSlot_ignore hl hp]
      rfl
    have again := State.fireSlot_restart (i := i) hl hp
    refine ⟨fun e he ht => ?_, fun v => ⟨fun c hc ht => ?_, fun k hk ht => ?_⟩⟩
    · rw [← ht, State.endLive_entry hs.tags he, ht] at again
      exact ⟨_, State.fireTemplate_outcome (ht ▸ State.removeEntry_dead he .retriggered) hst hrates i again, rfl⟩
    · rw [← ht, State.endLive_incoming hs.tags hc] at again
      exact ⟨_, State.fireTemplate_outcome (ht ▸ State.removeIncoming_dead hc .retriggered) hst hrates i again, rfl⟩
    · rw [← ht, State.endLive_current hs.tags hk] at again
      obtain ⟨-, -, dead, -⟩ := State.endAtOnce_keeps .retriggered hk
      exact ⟨_, State.fireTemplate_outcome (ht ▸ dead) hst hrates i again, rfl⟩

end Sys2Proof.Machine
end

section
/-! CUE.STOP and CUE.CUT by group mask and ALL, the first phase: the selected entries and incoming cues are removed (R18, R22). -/

namespace Sys2Proof.Machine

/-! ### Removal without sounding, on the rest of the part -/

theorem State.releaseSource_flow (s : State) (c : Cue) {x : Tag} (h : x ≠ c.tag) : (s.releaseSource c).flow x = s.flow x := by
  unfold State.releaseSource
  split
  · rfl
  · rfl
  · rfl
  · exact s.closeBound_flow h

theorem State.retire_flow (s : State) (c : Cue) (reason : EndReason) (v : Option VoiceId) {x : Tag} (h : x ≠ c.tag) :
    (s.retire c reason v).flow x = s.flow x :=
  State.releaseSource_flow _ c h

theorem State.removeEntry_spec (s : State) (tag : Tag) (reason : EndReason) :
    (s.removeEntry tag reason).ground = s.ground ∧ (s.removeEntry tag reason).alloc = s.alloc ∧
      (s.removeEntry tag reason).sched.entries = s.sched.entries.filter (fun e => e.cue.tag != tag) ∧
      ∀ x, x ≠ tag → (s.removeEntry tag reason).flow x = s.flow x := by
  unfold State.removeEntry
  split
  · rename_i e he
    have ht : e.cue.tag = tag := by simpa using List.find?_some he
    refine ⟨by simp, by simp, by simp [State.dropEntry], fun x hx => ?_⟩
    exact State.retire_flow _ _ _ _ (ht ▸ hx)
  · rename_i h
    refine ⟨rfl, rfl, (List.filter_eq_self.mpr fun e he => ?_).symm, fun _ _ => rfl⟩
    simpa using List.find?_eq_none.mp h e he

/-- The removal of a list of entries, by tag. -/
theorem State.removeEntries_spec (reason : EndReason) (tags : List Tag) (s : State) :
    (tags.foldl (fun s t => s.removeEntry t reason) s).ground = s.ground ∧
      (tags.foldl (fun s t => s.removeEntry t reason) s).alloc = s.alloc ∧
      (tags.foldl (fun s t => s.removeEntry t reason) s).sched.entries =
        s.sched.entries.filter (fun e => !tags.contains e.cue.tag) ∧
      ∀ x, x ∉ tags → (tags.foldl (fun s t => s.removeEntry t reason) s).flow x = s.flow x := by
  induction tags generalizing s with
  | nil => exact ⟨rfl, rfl, by simp, fun _ _ => rfl⟩
  | cons t tags ih =>
    obtain ⟨g, a, e, f⟩ := s.removeEntry_spec t reason
    obtain ⟨g', a', e', f'⟩ := ih (s.removeEntry t reason)
    refine ⟨g'.trans g, a'.trans a, e'.trans ?_, fun x hx => ?_⟩
    · rw [e, List.filter_filter]
      refine List.filter_congr fun x _ => ?_
      rw [List.contains_cons, Bool.not_or, Bool.and_comm]
      rfl
    · obtain ⟨h1, h2⟩ := not_or.mp (mt List.mem_cons.mpr hx)
      exact (f' x h2).trans (f x h1)

/-- What a HANDOFF voice is when its incoming cue has been removed (R39). -/
def Voice.unclaimed (r : Voice) : Voice := { r with state := .ending, incoming := none }

theorem State.removeIncoming_spec {s : State} {v : VoiceId} {c : Cue} (hc : (s.voice v).incoming = some c)
    (reason : EndReason) :
    (s.removeIncoming v reason).ground = s.ground ∧ (s.removeIncoming v reason).sched.entries = s.sched.entries ∧
      (s.removeIncoming v reason).voice v = (s.voice v).unclaimed ∧
      (∀ u, u ≠ v → (s.removeIncoming v reason).voice u = s.voice u) ∧
      ∀ x, x ≠ c.tag → (s.removeIncoming v reason).flow x = s.flow x := by
  have e : s.removeIncoming v reason = (s.putVoice v (s.voice v).unclaimed).retire c reason none := by
    simp only [State.removeIncoming, hc]
    rfl
  rw [e]
  refine ⟨by simp, by simp, ?_, fun u hu => ?_, fun x hx => ?_⟩
  · rw [State.voice, State.retire_alloc]
    exact s.putVoice_same v _
  · rw [State.voice, State.retire_alloc]
    exact s.putVoice_other v u _ hu
  · exact (State.retire_flow _ c reason none hx).trans (State.flow_of_streams (s.putVoice_streams v _) x)

/-- The removal of the incoming cues of a list of voices. -/
theorem State.removeIncomings_spec (reason : EndReason) (l : List VoiceId) (hl : l.Nodup) (s : State)
    (hi : ∀ v ∈ l, (s.voice v).incoming.isSome) :
    (l.foldl (fun s v => s.removeIncoming v reason) s).ground = s.ground ∧
      (l.foldl (fun s v => s.removeIncoming v reason) s).sched.entries = s.sched.entries ∧
      (∀ u, (l.foldl (fun s v => s.removeIncoming v reason) s).voice u =
        if u ∈ l then (s.voice u).unclaimed else s.voice u) ∧
      ∀ x, (∀ v ∈ l, ∀ c, (s.voice v).incoming = some c → x ≠ c.tag) →
        (l.foldl (fun s v => s.removeIncoming v reason) s).flow x = s.flow x := by
  induction l generalizing s with
  | nil => exact ⟨rfl, rfl, fun _ => rfl, fun _ _ => rfl⟩
  | cons w l ih =>
    obtain ⟨hw, hl⟩ := List.nodup_cons.mp hl
    obtain ⟨c, hc⟩ := Option.isSome_iff_exists.mp (hi w List.mem_cons_self)
    obtain ⟨g, e, v, o, f⟩ := State.removeIncoming_spec hc reason
    have same : ∀ u ∈ l, (s.removeIncoming w reason).voice u = s.voice u := fun u hu =>
      o u fun h => hw (h ▸ hu)
    obtain ⟨g', e', v', f'⟩ := ih hl (s.removeIncoming w reason) fun u hu => by
      rw [same u hu]
      exact hi u (List.mem_cons_of_mem _ hu)
    refine ⟨g'.trans g, e'.trans e, fun u => (v' u).trans ?_, fun x hx => ?_⟩
    · by_cases hu : u = w
      · subst hu
        rw [if_neg hw, if_pos List.mem_cons_self, v]
      · rw [o u hu]
        simp only [List.mem_cons, hu, false_or]
    · refine (f' x fun u hu d hd => ?_).trans (f x (hx w List.mem_cons_self c hc))
      rw [same u hu] at hd
      exact hx u (List.mem_cons_of_mem _ hu) d hd

/-! ### Tags on voices (R4) -/

theorem State.TagsOk.incoming_ne_current {s : State} (hs : s.TagsOk) {u w : VoiceId} {c : Cue} {k : Current}
    (hc : (s.voice u).incoming = some c) (hk : (s.voice w).current = some k) : c.tag ≠ k.cue.tag := fun e => by
  have same := State.HeldAt.unique (hs.claims_le k.cue.tag) (p := .incoming u c) (q := .current w k) ⟨hc, e⟩ ⟨hk, rfl⟩
  cases same

theorem State.TagsOk.voice_of_incoming {s : State} (hs : s.TagsOk) {u w : VoiceId} {c d : Cue}
    (hc : (s.voice u).incoming = some c) (hd : (s.voice w).incoming = some d) (e : c.tag = d.tag) : u = w := by
  have same := State.HeldAt.unique (hs.claims_le d.tag) (p := .incoming u c) (q := .incoming w d) ⟨hc, e⟩ ⟨hd, rfl⟩
  cases same
  rfl

/-! ### The first phase -/

section Selected

variable {s : State} (a : Addressed) (reason : EndReason)

theorem State.selectedEntries_mem (hs : s.TagsOk) {e : Entry} (he : e ∈ s.sched.entries) :
    e.cue.tag ∈ s.selectedEntries a ↔ a.selects e.cue = true := by
  simp only [State.selectedEntries, List.mem_map, List.mem_filter]
  constructor
  · rintro ⟨x, ⟨hx, hsel⟩, ht⟩
    have same := State.HeldAt.unique (hs.claims_le e.cue.tag) (p := .entry x) (q := .entry e) ⟨hx, ht⟩ ⟨he, rfl⟩
    cases same
    exact hsel
  · exact fun h => ⟨e, ⟨he, h⟩, rfl⟩

/-- What the first phase of a stop or a cut leaves: the entries not selected, the voices with the selected incoming cues removed,
and the streams of the incoming cues that are not selected (R22). -/
theorem State.removeSelected_spec (hs : s.TagsOk) :
    (s.removeSelected a reason).ground = s.ground ∧
      (s.removeSelected a reason).sched.entries = s.sched.entries.filter (fun e => !a.selects e.cue) ∧
      (∀ u, (s.removeSelected a reason).voice u =
        if (s.voice u).incoming.any a.selects = true then (s.voice u).unclaimed else s.voice u) ∧
      ∀ u c, (s.voice u).incoming = some c → a.selects c = false → (s.removeSelected a reason).flow c.tag = s.flow c.tag := by
  obtain ⟨g, al, e, f⟩ := State.removeEntries_spec reason (s.selectedEntries a) s
  have voices : ∀ u, ((s.selectedEntries a).foldl (fun s t => s.removeEntry t reason) s).voice u = s.voice u := fun u => by
    rw [State.voice, al]
  have mem : ∀ u, u ∈ s.selectedIncoming a ↔ (s.voice u).incoming.any a.selects = true := fun u => by
    rw [State.selectedIncoming, List.mem_filter]
    exact and_iff_right (mem_allVoices u)
  obtain ⟨g', e', v', f'⟩ := State.removeIncomings_spec reason (s.selectedIncoming a) (allVoices_nodup.filter _)
    ((s.selectedEntries a).foldl (fun s t => s.removeEntry t reason) s) fun u hu => by
      rw [voices]
      obtain ⟨c, hc, -⟩ := (Option.any_eq_true _ _).mp ((mem u).mp hu)
      rw [hc]
      rfl
  refine ⟨g'.trans g, e'.trans (e.trans (List.filter_congr fun x hx => ?_)), fun u => (v' u).trans ?_, fun u c hc hsel => ?_⟩
  · congr 1
    rw [Bool.eq_iff_iff, List.contains_iff_mem]
    exact State.selectedEntries_mem a hs hx
  · rw [voices]
    exact if_congr (mem u) rfl rfl
  · refine (f' c.tag fun w hw d hd ht => ?_).trans (f c.tag fun h => ?_)
    · rw [voices] at hd
      obtain rfl := hs.voice_of_incoming hc hd ht
      have taken := (mem u).mp hw
      rw [hc, Option.any_some, hsel] at taken
      cases taken
    · obtain ⟨x, hx, ht⟩ := List.mem_map.mp h
      have same := State.HeldAt.unique (hs.claims_le c.tag) (p := .incoming u c) (q := .entry x) ⟨hc, rfl⟩
        ⟨(List.mem_filter.mp hx).1, ht⟩
      cases same

theorem State.removedCount_eq :
    s.removedCount a =
      (s.sched.entries.countP fun e => a.selects e.cue) + allVoices.countP fun v => (s.voice v).incoming.any a.selects := by
  rw [State.removedCount, State.selectedEntries, State.selectedIncoming, List.length_map, List.countP_eq_length_filter,
    List.countP_eq_length_filter]

end Selected

end Sys2Proof.Machine
end

section
/-! CUE.STOP by group mask and ALL, the second phase: the selected PLAYING cues enter ENDING (R19, R20, R22). -/

namespace Sys2Proof.Machine

/-! ### What the mask and ALL forms address (R18) -/

/-- The request addresses these cues by its mask or ALL form, and not those of group 0 by a mask. -/
def Addresses (f : List Byte) (selected : Cue → Bool) : Prop :=
  (u8 f 0 = 1 ∧ (u16 f 1).getLsbD 0 = false ∧ ∀ c, selected c = (u16 f 1).getLsbD c.group) ∨
    (u8 f 0 = 2 ∧ ∀ c, selected c = true)

theorem Addresses.exists {f : List Byte} {selected : Cue → Bool} (h : Addresses f selected) :
    ∃ a : Addressed, a.selects = selected ∧ (∀ s, ownStop f s = s.stopAddressed a) ∧ (∀ s, ownCut f s = s.cutAddressed a) ∧
      ∀ c d : Cue, c.group = d.group → selected c = selected d := by
  rcases h with ⟨hf, h0, hs⟩ | ⟨hf, hs⟩
  · refine ⟨.groups (u16 f 1), (funext hs).symm, fun s => ?_, fun s => ?_, fun c d hg => by rw [hs, hs, hg]⟩
    · rw [ownStop, hf]
      exact if_neg (by rw [h0]; exact Bool.false_ne_true)
    · rw [ownCut, hf]
      exact if_neg (by rw [h0]; exact Bool.false_ne_true)
  · refine ⟨.all, (funext hs).symm, fun s => ?_, fun s => ?_, fun c d _ => by rw [hs, hs]⟩
    · simp [ownStop, hf]
    · simp [ownCut, hf]

theorem ownStop_badMask {s : State} {f : List Byte} (hf : u8 f 0 = 1) (h0 : (u16 f 1).getLsbD 0 = true) :
    ownStop f s = (s, badParam 2) := by
  rw [ownStop, hf]
  exact if_pos h0

theorem ownCut_badMask {s : State} {f : List Byte} (hf : u8 f 0 = 1) (h0 : (u16 f 1).getLsbD 0 = true) :
    ownCut f s = (s, badParam 2) := by
  rw [ownCut, hf]
  exact if_pos h0

/-! ### The voices as the second phase finds them -/

section Voices

variable (s : State) (selected : Cue → Bool)

/-- The voice's incoming cue is selected. -/
def State.takesIncoming (v : VoiceId) : Bool := (s.voice v).incoming.any selected

/-- The voice's current cue is selected. -/
def State.takesCurrent (v : VoiceId) : Bool := (s.voice v).current.any fun k => selected k.cue

/-- A voice after the first phase of a stop or a cut. -/
def State.afterRemoval (v : VoiceId) : Voice :=
  if s.takesIncoming selected v = true then (s.voice v).unclaimed else s.voice v

variable {s selected}

theorem State.afterRemoval_current (v : VoiceId) : (s.afterRemoval selected v).current = (s.voice v).current := by
  unfold State.afterRemoval
  split <;> rfl

/-- A PLAYING voice has no incoming cue (R29), so the first phase leaves it as it was. -/
theorem State.afterRemoval_active (hs : s.VoicesOk) {v : VoiceId} :
    (s.afterRemoval selected v).state = .active ↔ (s.voice v).state = .active := by
  unfold State.afterRemoval
  split
  · rename_i h
    refine ⟨(fun h' => nomatch h'), fun ha => ?_⟩
    rw [State.takesIncoming, ((hs v).of_active ha).2.1] at h
    cases h
  · rfl

theorem State.afterRemoval_of_active (hs : s.VoicesOk) {v : VoiceId} (ha : (s.voice v).state = .active) :
    s.afterRemoval selected v = s.voice v := by
  have : s.takesIncoming selected v = false := by
    rw [State.takesIncoming, ((hs v).of_active ha).2.1]
    rfl
  rw [State.afterRemoval, this]
  rfl

/-- A fold over the selected current cues, as a fold over the voices. -/
theorem foldl_selectedCurrent {α : Type} (a : Addressed) (g : α → VoiceId × Tag → α) (x : α) :
    (s.selectedCurrent a).foldl g x =
      allVoices.foldl
        (fun x v => match (s.voice v).current with
          | some k => if a.selects k.cue = true then g x (v, k.cue.tag) else x
          | none => x) x := by
  rw [State.selectedCurrent, List.foldl_filterMap]
  congr 1
  funext x v
  cases (s.voice v).current with
  | none => rfl
  | some k => by_cases h : a.selects k.cue = true <;> simp [h]

end Voices

/-! ### The second phase of a stop -/

section Stop

variable {s : State} (hs : s.VoicesOk) (a : Addressed)

/-- One voice of the second phase of a stop. -/
def State.stopVoice (s : State) (a : Addressed) (x : Counted) (v : VoiceId) : Counted :=
  match (s.voice v).current with
  | some k => if a.selects k.cue = true then x.stop (v, k.cue.tag) else x
  | none => x

/-- A voice after a stop of the selected cues (R19). -/
def State.afterStop (s : State) (selected : Cue → Bool) (v : VoiceId) : Voice :=
  if (s.takesCurrent selected v && (s.voice v).state == .active) = true then (s.enterEnding v .stopped).voice v
  else s.afterRemoval selected v

include hs

theorem State.stopVoice_spec {x : Counted} {v : VoiceId} (hg : x.state.ground = s.ground)
    (hv : x.state.voice v = s.afterRemoval a.selects v) :
    x.state.Spares (s.stopVoice a x v).state ∧ (s.stopVoice a x v).state.voice v = s.afterStop a.selects v ∧
      (∀ u, u ≠ v → (s.stopVoice a x v).state.voice u = x.state.voice u) ∧
      (s.stopVoice a x v).first =
        x.first + (if (s.takesCurrent a.selects v && (s.voice v).state == .active) = true then 1 else 0) ∧
      (s.stopVoice a x v).second =
        x.second + (if (s.takesCurrent a.selects v && (s.voice v).state != .active) = true then 1 else 0) := by
  have idle : s.takesCurrent a.selects v = false → s.stopVoice a x v = x := by
    intro h
    unfold State.stopVoice
    split
    · rename_i k hk
      rw [State.takesCurrent, hk] at h
      exact if_neg (Bool.eq_false_iff.mp h)
    · rfl
  cases htake : s.takesCurrent a.selects v with
  | false =>
    rw [idle htake, State.afterStop, htake]
    exact ⟨.refl _, hv, fun _ _ => rfl, rfl, rfl⟩
  | true =>
    obtain ⟨k, hk, hsel⟩ := (Option.any_eq_true _ _).mp htake
    have holds : x.state.holds v k.cue.tag = true := by
      simp only [State.holds, hv, State.afterRemoval_current, hk, Option.any_some, beq_self_eq_true]
    have stop : s.stopVoice a x v = x.stop (v, k.cue.tag) := by
      simp only [State.stopVoice, hk]
      exact if_pos hsel
    rw [stop, Counted.stop, if_pos holds, State.afterStop, htake]
    by_cases ha : (s.voice v).state = .active
    · have ha' : (x.state.voice v).state = .active := by rw [hv]; exact (State.afterRemoval_active hs).mpr ha
      have same : x.state.voice v = s.voice v := hv.trans (State.afterRemoval_of_active hs ha)
      have is : ((s.voice v).state == .active) = true := beq_iff_eq.mpr ha
      rw [if_pos ha', bne, is]
      exact ⟨x.state.enterEnding_spares v .stopped, State.enterEnding_voice_congr .stopped (basis_of_ground hg) same,
        fun u hu => x.state.enterEnding_voice_other .stopped hu, rfl, rfl⟩
    · have ha' : (x.state.voice v).state ≠ .active := by rw [hv]; exact mt (State.afterRemoval_active hs).mp ha
      have is : ((s.voice v).state == .active) = false := beq_eq_false_iff_ne.mpr ha
      rw [if_neg ha', bne, is]
      exact ⟨.refl _, hv, fun _ _ => rfl, rfl, rfl⟩

/-- The second phase over a list of voices, each still as the first phase left it. -/
theorem State.stopVoices_spec (l : List VoiceId) (hl : l.Nodup) (x : Counted) (hg : x.state.ground = s.ground)
    (hv : ∀ v ∈ l, x.state.voice v = s.afterRemoval a.selects v) :
    x.state.Spares (l.foldl (s.stopVoice a) x).state ∧
      (∀ v ∈ l, (l.foldl (s.stopVoice a) x).state.voice v = s.afterStop a.selects v) ∧
      (∀ u, u ∉ l → (l.foldl (s.stopVoice a) x).state.voice u = x.state.voice u) ∧
      (l.foldl (s.stopVoice a) x).first =
        x.first + l.countP (fun v => s.takesCurrent a.selects v && (s.voice v).state == .active) ∧
      (l.foldl (s.stopVoice a) x).second =
        x.second + l.countP (fun v => s.takesCurrent a.selects v && (s.voice v).state != .active) := by
  induction l generalizing x with
  | nil => exact ⟨.refl _, by simp, fun _ _ => rfl, rfl, rfl⟩
  | cons w l ih =>
    obtain ⟨hw, hl⟩ := List.nodup_cons.mp hl
    obtain ⟨sp, own, other, first, second⟩ := State.stopVoice_spec hs a hg (hv w List.mem_cons_self)
    obtain ⟨sp', mine, rest, first', second'⟩ := ih hl (s.stopVoice a x w) (sp.ground.trans hg) fun v h => by
      rw [other v fun e => hw (e ▸ h)]
      exact hv v (List.mem_cons_of_mem _ h)
    refine ⟨sp.trans sp', fun v h => ?_, fun u h => ?_, ?_, ?_⟩
    · rcases List.mem_cons.mp h with rfl | h
      · exact (rest v hw).trans own
      · exact mine v h
    · obtain ⟨h1, h2⟩ := not_or.mp (mt List.mem_cons.mpr h)
      exact (rest u h2).trans (other u h1)
    · rw [List.foldl_cons, first', first, List.countP_cons]
      omega
    · rw [List.foldl_cons, second', second, List.countP_cons]
      omega

end Stop

/-- A voice whose incoming cue is selected is in HANDOFF, so no stop reaches its departing cue (R19, R29). -/
theorem State.afterStop_eq {s : State} (hs : s.VoicesOk) (selected : Cue → Bool) (v : VoiceId) :
    s.afterStop selected v =
      if s.takesIncoming selected v = true then (s.voice v).unclaimed
      else if (s.takesCurrent selected v && (s.voice v).state == .active) = true then (s.enterEnding v .stopped).voice v
      else s.voice v := by
  unfold State.afterStop
  by_cases h : (s.takesCurrent selected v && (s.voice v).state == .active) = true
  · have ha : (s.voice v).state = .active := beq_iff_eq.mp (Bool.and_eq_true_iff.mp h).2
    have hi : s.takesIncoming selected v = false := by
      rw [State.takesIncoming, ((hs v).of_active ha).2.1]
      rfl
    rw [if_pos h, if_pos h, hi]
    rfl
  · rw [if_neg h, if_neg h]
    rfl

/-- CUE.STOP by mask and ALL: the two phases, with the counts of the cues as found. -/
theorem State.stopAddressed_spec {s : State} (hs : s.VoicesOk) (ht : s.TagsOk) (a : Addressed) :
    ∃ t,
      s.stopAddressed a =
        (t, answerOk
          [byteOf ((s.sched.entries.countP fun e => a.selects e.cue) + allVoices.countP (s.takesIncoming a.selects)),
            byteOf (allVoices.countP fun v => s.takesCurrent a.selects v && (s.voice v).state == .active),
            byteOf (allVoices.countP fun v => s.takesCurrent a.selects v && (s.voice v).state != .active)]) ∧
      t.ground = s.ground ∧ t.sched.entries = s.sched.entries.filter (fun e => !a.selects e.cue) ∧
      ∀ v, t.voice v = s.afterStop a.selects v := by
  obtain ⟨g, e, v, -⟩ := State.removeSelected_spec a .stopped ht
  obtain ⟨sp, voices, -, first, second⟩ := State.stopVoices_spec hs a allVoices allVoices_nodup
    { state := s.removeSelected a .stopped, first := 0, second := 0 } g fun u _ => v u
  refine ⟨_, ?_, sp.ground.trans g, sp.entries.trans e, fun u => voices u (mem_allVoices u)⟩
  have phase := foldl_selectedCurrent (s := s) a Counted.stop
    { state := s.removeSelected a .stopped, first := 0, second := 0 }
  rw [Nat.zero_add] at first second
  rw [← first, ← second, State.stopAddressed, phase, State.removedCount_eq]
  rfl

/-- Settles O29. -/
theorem cueStopByMask : Obligations.CueStopByMask := by
  intro s num f h hs
  refine ⟨fun hf h0 => ?_, fun selected hsel => ?_⟩
  · rw [exec_cueStop h, ownStop_badMask hf h0]
    rfl
  · obtain ⟨a, rfl, stop, -, -⟩ := Addresses.exists hsel
    obtain ⟨t, run, g, e, v⟩ := State.stopAddressed_spec (s := s.heard) hs.voices hs.tags a
    refine ⟨t, ?_, e, fun u => ?_, congrArg Ground.counter g, time_of_basis (s := s.heard) (basis_of_ground g),
      pitchMap_of_basis (s := s.heard) (basis_of_ground g), congrArg Ground.triggers g, congrArg Ground.link g,
      congrArg Ground.pending g⟩
    · rw [exec_cueStop h, stop, run]
      rfl
    · rw [v u, State.afterStop_eq (s := s.heard) hs.voices,
        State.enterEnding_voice_congr (s := s) (t := s.heard) .stopped rfl rfl]
      rfl

end Sys2Proof.Machine
end

section
/-! CUE.CUT by group mask and ALL, the second phase: the selected current cues are ended at once, in order of voice number, and an
incoming cue that is not selected starts, and chokes (R21, R22, R40, R45). -/

namespace Sys2Proof.Machine

/-! ### A record that a choke may have reached -/

/-- The record of a voice of `s`, choked or not. -/
def State.chokedIf (s : State) (v : VoiceId) (p : Bool) : Voice :=
  if p = true then (s.enterEnding v .choked).voice v else s.voice v

/-- A voice that is choked once is not choked again. -/
theorem State.chokedIf_true_not_choked (s : State) (v : VoiceId) (g : Nat) : ¬(s.chokedIf v true).chokedBy g = true := by
  intro h
  obtain ⟨ha, k, hk, -⟩ := (Voice.chokedBy_iff _ _).mp h
  have e : s.chokedIf v true = (s.enterEnding v .choked).voice v := rfl
  rw [e] at ha hk
  cases hk' : (s.voice v).current with
  | some j => exact State.enterEnding_not_active .choked hk' ha
  | none =>
    rw [s.enterEnding_other .choked (.inr hk'), hk'] at hk
    cases hk

/-- One more choke of a group, on a record that may have been choked before. -/
theorem State.choke_chokedIf {s t : State} {v : VoiceId} {p : Bool} (hb : t.basis = s.basis) (hv : t.voice v = s.chokedIf v p)
    (E : Prop) [Decidable E] (g : Nat) :
    (if E ∧ (t.voice v).chokedBy g = true then (t.enterEnding v .choked).voice v else t.voice v) =
      s.chokedIf v (p || (decide E && (s.voice v).current.any fun k => k.cue.group == g)) := by
  cases p with
  | true =>
    rw [if_neg fun h => s.chokedIf_true_not_choked v g (hv ▸ h.2), hv, Bool.true_or]
  | false =>
    have same : t.voice v = s.voice v := hv
    rw [Bool.false_or, same, State.enterEnding_voice_congr .choked hb same, State.chokedIf]
    by_cases ha : (s.voice v).state = .active
    · refine if_congr ?_ rfl rfl
      rw [Voice.chokedBy_iff, Bool.and_eq_true, decide_eq_true_eq, Option.any_eq_true]
      simp only [ha, true_and, beq_iff_eq]
    · rw [s.enterEnding_other .choked (.inl ha), ite_self, ite_self]

/-- A voice with no current cue is not changed by a choke. -/
theorem State.chokedIf_of_none {s : State} {v : VoiceId} (h : (s.voice v).current = none) (p : Bool) :
    s.chokedIf v p = s.voice v := by
  rw [State.chokedIf, s.enterEnding_other .choked (.inr h), ite_self]

/-! ### The voices during the second phase -/

section Cut

variable (s : State) (selected : Cue → Bool)

/-- The incoming cue that starts on a voice: it is not selected, and the departing cue is. -/
def State.starting (v : VoiceId) : Option Cue :=
  if (s.takesCurrent selected v && !s.takesIncoming selected v) = true then (s.voice v).incoming else none

/-- The cue that starts on this voice chokes the group. -/
def State.startChokes (u : VoiceId) (group : Nat) : Bool :=
  (s.starting selected u).any fun c => c.exclusive && c.group != 0 && c.group == group

/-- A voice of a cut, when the voices of the list have been served. -/
def State.afterCut (served : List VoiceId) (v : VoiceId) : Voice :=
  if s.takesCurrent selected v = true then
    if v ∈ served then
      match s.starting selected v with
      | some c => (s.startCue v c).chokedIf v (served.any fun u => decide (v < u) && s.startChokes selected u c.group)
      | none => Voice.idle
    else s.afterRemoval selected v
  else if s.takesIncoming selected v = true then (s.voice v).unclaimed
  else s.chokedIf v (served.any fun u => (s.voice v).current.any fun k => s.startChokes selected u k.cue.group)

/-- What holds during the second phase of a cut, when the voices of the list have been served. -/
structure State.CutSoFar (served : List VoiceId) (t : State) : Prop where
  ground : t.ground = s.ground
  voices : ∀ v, t.voice v = s.afterCut selected served v
  waiting : ∀ v c, v ∉ served → s.starting selected v = some c → t.Clear c.tag ∧ t.flow c.tag = s.flow c.tag

variable {s selected}

theorem State.starting_some {v : VoiceId} {c : Cue} (h : s.starting selected v = some c) :
    s.takesCurrent selected v = true ∧ (s.voice v).incoming = some c ∧ selected c = false := by
  obtain ⟨hc, hi⟩ := Option.ite_none_right_eq_some.mp h
  obtain ⟨h1, h2⟩ := Bool.and_eq_true_iff.mp hc
  refine ⟨h1, hi, ?_⟩
  rw [State.takesIncoming, hi] at h2
  simpa using h2

theorem State.startChokes_none {u : VoiceId} (h : s.starting selected u = none) (g : Nat) :
    s.startChokes selected u g = false := by
  rw [State.startChokes, h]
  rfl

theorem State.startChokes_some {u : VoiceId} {c : Cue} (h : s.starting selected u = some c) (g : Nat) :
    s.startChokes selected u g = (decide (c.exclusive = true ∧ c.group ≠ 0) && c.group == g) := by
  rw [State.startChokes, h, Option.any_some]
  congr 1
  rw [Bool.eq_iff_iff]
  simp

/-- Serving a voice on which no cue starts changes the record of no other voice. -/
theorem State.afterCut_cons {served : List VoiceId} {v w : VoiceId} (h : s.starting selected w = none)
    (hv : v ≠ w ∨ s.takesCurrent selected v = false) :
    s.afterCut selected (w :: served) v = s.afterCut selected served v := by
  have chokes := State.startChokes_none h
  have never : ∀ j : Option Current, (j.any fun _ => false) = false := fun j => by cases j <;> rfl
  unfold State.afterCut
  rcases hv with hv | hv
  · simp only [List.any_cons, chokes, never, Bool.and_false, Bool.false_or, List.mem_cons, hv, false_or]
  · simp only [List.any_cons, chokes, never, Bool.false_or, hv, Bool.false_eq_true, if_false]

/-- The record of the voice on which a cue starts, once it is served: the earlier voices' chokes came before its start. -/
theorem State.afterCut_starts {served : List VoiceId} {w : VoiceId} {c : Cue} (h : s.starting selected w = some c)
    (hlt : ∀ u ∈ served, u < w) : s.afterCut selected (w :: served) w = (s.startCue w c).voice w := by
  have none_after : ((w :: served).any fun u => decide (w < u) && s.startChokes selected u c.group) = false := by
    refine List.any_eq_false.mpr fun u hu => ?_
    have : ¬w < u := by
      rcases List.mem_cons.mp hu with rfl | hu
      · exact lt_irrefl _
      · exact (hlt u hu).le.not_gt
    simp [this]
  rw [State.afterCut, if_pos (State.starting_some h).1, if_pos List.mem_cons_self, h]
  dsimp only
  rw [none_after]
  rfl

theorem State.afterCut_idle {served : List VoiceId} {v : VoiceId} (hcur : s.takesCurrent selected v = true)
    (hm : v ∈ served) (hst : s.starting selected v = none) : s.afterCut selected served v = Voice.idle := by
  rw [State.afterCut, if_pos hcur, if_pos hm, hst]

theorem State.afterCut_started {served : List VoiceId} {v : VoiceId} {d : Cue} (hm : v ∈ served)
    (hst : s.starting selected v = some d) :
    s.afterCut selected served v =
      (s.startCue v d).chokedIf v (served.any fun u => decide (v < u) && s.startChokes selected u d.group) := by
  rw [State.afterCut, if_pos (State.starting_some hst).1, if_pos hm, hst]

theorem State.afterCut_waiting {served : List VoiceId} {v : VoiceId} (hcur : s.takesCurrent selected v = true)
    (hm : v ∉ served) : s.afterCut selected served v = s.afterRemoval selected v := by
  rw [State.afterCut, if_pos hcur, if_neg hm]

theorem State.afterCut_unclaimed {served : List VoiceId} {v : VoiceId} (hcur : s.takesCurrent selected v = false)
    (hin : s.takesIncoming selected v = true) : s.afterCut selected served v = (s.voice v).unclaimed := by
  rw [State.afterCut, if_neg (Bool.eq_false_iff.mp hcur), if_pos hin]

theorem State.afterCut_other {served : List VoiceId} {v : VoiceId} (hcur : s.takesCurrent selected v = false)
    (hin : s.takesIncoming selected v = false) :
    s.afterCut selected served v =
      s.chokedIf v (served.any fun u => (s.voice v).current.any fun k => s.startChokes selected u k.cue.group) := by
  rw [State.afterCut, if_neg (Bool.eq_false_iff.mp hcur), if_neg (Bool.eq_false_iff.mp hin)]

/-- A voice that waits to be served is not choked: its cue is selected, and what starts is not, in another group. -/
theorem State.waiting_not_choked (hgroup : ∀ c d : Cue, c.group = d.group → selected c = selected d)
    {v : VoiceId} (hcur : s.takesCurrent selected v = true) {c : Cue} (hc : selected c = false) :
    ¬(s.afterRemoval selected v).chokedBy c.group = true := by
  intro h
  obtain ⟨-, k, hk, hg⟩ := (Voice.chokedBy_iff _ _).mp h
  rw [State.afterRemoval_current] at hk
  rw [State.takesCurrent, hk, Option.any_some, hgroup _ _ hg, hc] at hcur
  cases hcur

/-- The other voices once a voice is served on which a cue starts: the choke comes on top of what they were. -/
theorem State.afterCut_choked {served : List VoiceId} {v w : VoiceId} {c : Cue} {t : State}
    (hgroup : ∀ c d : Cue, c.group = d.group → selected c = selected d) (h : s.starting selected w = some c) (hv : v ≠ w)
    (hlt : ∀ u ∈ served, u < w) (hb : t.basis = s.basis) (ht : t.voice v = s.afterCut selected served v) :
    (if (c.exclusive = true ∧ c.group ≠ 0) ∧ (t.voice v).chokedBy c.group = true then (t.enterEnding v .choked).voice v
      else t.voice v) = s.afterCut selected (w :: served) v := by
  have spared : ∀ r : Voice, s.afterCut selected served v = r → s.afterCut selected (w :: served) v = r →
      ¬r.chokedBy c.group = true → (if (c.exclusive = true ∧ c.group ≠ 0) ∧ (t.voice v).chokedBy c.group = true then
        (t.enterEnding v .choked).voice v else t.voice v) = s.afterCut selected (w :: served) v := fun r e e' hn => by
    rw [ht, e, e', if_neg fun k => hn k.2]
  cases hcur : s.takesCurrent selected v with
  | true =>
    by_cases hm : v ∈ served
    · have hm' := List.mem_cons_of_mem w hm
      cases hst : s.starting selected v with
      | none =>
        exact spared _ (State.afterCut_idle hcur hm hst) (State.afterCut_idle hcur hm' hst) Bool.false_ne_true
      | some d =>
        have basis := hb.trans (basis_of_ground (s.startCue_keeps v d).1).symm
        rw [State.choke_chokedIf basis (ht.trans (State.afterCut_started hm hst)), State.afterCut_started hm' hst]
        cases hk : ((s.startCue v d).voice v).current with
        | none => rw [State.chokedIf_of_none hk, State.chokedIf_of_none hk]
        | some k =>
          have hg : k.cue.group = d.group := by
            rw [(s.startCue_voice v d).1] at hk
            exact (s.sound_fits v d k hk).2
          rw [List.any_cons, State.startChokes_some h, decide_eq_true (hlt v hm), Bool.true_and, Bool.or_comm, Option.any_some, hg,
            Bool.beq_comm]
    · have hm' : v ∉ w :: served := fun k => (List.mem_cons.mp k).elim hv hm
      exact spared _ (State.afterCut_waiting hcur hm) (State.afterCut_waiting hcur hm')
        (State.waiting_not_choked hgroup hcur (State.starting_some h).2.2)
  | false =>
    cases hin : s.takesIncoming selected v with
    | true => exact spared _ (State.afterCut_unclaimed hcur hin) (State.afterCut_unclaimed hcur hin) Bool.false_ne_true
    | false =>
      rw [State.choke_chokedIf hb (ht.trans (State.afterCut_other hcur hin)), State.afterCut_other hcur hin, List.any_cons,
        Bool.or_comm]
      congr 2
      cases (s.voice v).current with
      | none => exact Bool.and_false _
      | some k => rw [Option.any_some, Option.any_some, State.startChokes_some h, Bool.beq_comm]

end Cut

end Sys2Proof.Machine
end

section
/-! CUE.CUT by group mask and ALL: the service of the voices one by one, and its outcome (R21, R22, R40, R45). -/

namespace Sys2Proof.Machine

/-- One voice of the second phase of a cut. -/
def State.cutVoice (s : State) (a : Addressed) (x : Counted) (v : VoiceId) : Counted :=
  match (s.voice v).current with
  | some k => if a.selects k.cue = true then x.cut (v, k.cue.tag) else x
  | none => x

section Serve

variable {s : State} {a : Addressed} {served : List VoiceId} {w : VoiceId}

theorem State.cutVoice_left {x : Counted} (h : s.takesCurrent a.selects w = false) : s.cutVoice a x w = x := by
  unfold State.cutVoice
  split
  · rename_i k hk
    rw [State.takesCurrent, hk] at h
    exact if_neg (Bool.eq_false_iff.mp h)
  · rfl

theorem State.starting_of_left {selected : Cue → Bool} (h : s.takesCurrent selected w = false) :
    s.starting selected w = none := by
  rw [State.starting, h]
  rfl

theorem State.starting_of_claimed {selected : Cue → Bool} (h : s.takesIncoming selected w = true) :
    s.starting selected w = none := by
  rw [State.starting, h, Bool.not_true, Bool.and_false]
  rfl

/-- A selected cue is still on its voice when its turn comes, and is ended at once. -/
theorem State.cutVoice_ends {x : Counted} {k : Current} (hk : (s.voice w).current = some k) (hsel : a.selects k.cue = true)
    (hv : (x.state.voice w).current = (s.voice w).current) :
    s.cutVoice a x w = { x with state := x.state.endAtOnce w .cut, first := x.first + 1 } := by
  have holds : x.state.holds w k.cue.tag = true := by
    simp only [State.holds, hv, hk, Option.any_some, beq_self_eq_true]
  simp only [State.cutVoice, hk]
  rw [if_pos hsel]
  exact if_pos holds

theorem State.afterRemoval_incoming {selected : Cue → Bool} (hcur : s.takesCurrent selected w = true) :
    (s.afterRemoval selected w).incoming = s.starting selected w := by
  rw [State.afterRemoval, State.starting, hcur]
  cases s.takesIncoming selected w <;> rfl

/-- A voice served on which no cue is selected leaves what holds as it is. -/
theorem State.CutSoFar.skip {selected : Cue → Bool} {t : State} (h : s.CutSoFar selected served t)
    (hcur : s.takesCurrent selected w = false) : s.CutSoFar selected (w :: served) t where
  ground := h.ground
  voices v := (h.voices v).trans (by
    by_cases hv : v = w
    · exact (State.afterCut_cons (State.starting_of_left hcur) (.inr (hv ▸ hcur))).symm
    · exact (State.afterCut_cons (State.starting_of_left hcur) (.inl hv)).symm)
  waiting v c hv := h.waiting v c fun hm => hv (List.mem_cons_of_mem w hm)

/-- A voice served whose current cue is selected: its cue ends, and what waits behind it starts. -/
theorem State.CutSoFar.serve {selected : Cue → Bool} {t : State} (hs : s.Placed)
    (hgroup : ∀ c d : Cue, c.group = d.group → selected c = selected d) (h : s.CutSoFar selected served t)
    (hlt : ∀ u ∈ served, u < w) {k : Current} (hk : (s.voice w).current = some k) (hsel : selected k.cue = true) :
    s.CutSoFar selected (w :: served) (t.endAtOnce w .cut) := by
  have hcur : s.takesCurrent selected w = true := by rw [State.takesCurrent, hk]; exact hsel
  have hm : w ∉ served := fun hm => lt_irrefl w (hlt w hm)
  have hw : t.voice w = s.afterRemoval selected w := (h.voices w).trans (State.afterCut_waiting hcur hm)
  have hk' : (t.voice w).current = some k := by rw [hw, State.afterRemoval_current, hk]
  have hi : (t.voice w).incoming = s.starting selected w := by rw [hw, State.afterRemoval_incoming hcur]
  obtain ⟨g, -, -, keeps⟩ := State.endAtOnce_keeps .cut hk'
  refine ⟨g.trans h.ground, fun v => ?_, fun v d hv hd => ?_⟩
  · cases hst : s.starting selected w with
    | none =>
      obtain ⟨own, other⟩ := State.endAtOnce_idle_voice .cut hk' (hi.trans hst)
      by_cases hv : v = w
      · subst hv
        rw [own, State.afterCut_idle hcur List.mem_cons_self hst]
      · rw [other v hv, State.afterCut_cons hst (.inl hv)]
        exact h.voices v
    | some c =>
      obtain ⟨-, hci, -⟩ := State.starting_some hst
      have hne := hs.tags.incoming_ne_current hci hk
      obtain ⟨own, other⟩ := State.endAtOnce_starts_voice .cut hk' (hi.trans hst) hne
      by_cases hv : v = w
      · subst hv
        rw [own, State.afterCut_starts hst hlt, (s.startCue_voice v c).1]
        exact State.sound_voice_congr v c (basis_of_ground h.ground) fun _ => (h.waiting v c hm hst).2
      · rw [other v hv]
        exact State.afterCut_choked hgroup hst hv hlt (basis_of_ground h.ground) (h.voices v)
  · obtain ⟨hvw, hvs⟩ := not_or.mp (mt List.mem_cons.mpr hv)
    obtain ⟨clear, flow⟩ := h.waiting v d hvs hd
    obtain ⟨-, hdi, -⟩ := State.starting_some hd
    obtain ⟨clear', flow'⟩ := keeps d.tag clear fun c hc e => by
      obtain ⟨-, hci, -⟩ := State.starting_some (hi.symm.trans hc)
      exact hvw (hs.tags.voice_of_incoming hdi hci e)
    exact ⟨clear', flow'.trans flow⟩

/-- One voice of the second phase of a cut. -/
theorem State.cutVoice_spec (hs : s.Placed) (hgroup : ∀ c d : Cue, c.group = d.group → a.selects c = a.selects d)
    {x : Counted} (h : s.CutSoFar a.selects served x.state) (hlt : ∀ u ∈ served, u < w) :
    s.CutSoFar a.selects (w :: served) (s.cutVoice a x w).state ∧
      (s.cutVoice a x w).state.sched.entries = x.state.sched.entries ∧
      (s.cutVoice a x w).first = x.first + if s.takesCurrent a.selects w = true then 1 else 0 := by
  cases hcur : s.takesCurrent a.selects w with
  | false =>
    rw [State.cutVoice_left hcur]
    exact ⟨h.skip hcur, rfl, rfl⟩
  | true =>
    obtain ⟨k, hk, hsel⟩ := (Option.any_eq_true _ _).mp hcur
    have hm : w ∉ served := fun hm => lt_irrefl w (hlt w hm)
    have hv : (x.state.voice w).current = (s.voice w).current := by
      rw [h.voices w, State.afterCut_waiting hcur hm, State.afterRemoval_current]
    rw [State.cutVoice_ends hk hsel hv]
    exact ⟨h.serve hs hgroup hlt hk hsel, (State.endAtOnce_keeps .cut (hv.trans hk)).2.1, rfl⟩

/-- The second phase of a cut over a list of voices in ascending order. -/
theorem State.cutVoices_spec (hs : s.Placed) (hgroup : ∀ c d : Cue, c.group = d.group → a.selects c = a.selects d)
    (l : List VoiceId) (hl : l.Pairwise (· < ·)) (x : Counted) (hlt : ∀ u ∈ served, ∀ w ∈ l, u < w)
    (h : s.CutSoFar a.selects served x.state) :
    s.CutSoFar a.selects (l.reverse ++ served) (l.foldl (s.cutVoice a) x).state ∧
      (l.foldl (s.cutVoice a) x).state.sched.entries = x.state.sched.entries ∧
      (l.foldl (s.cutVoice a) x).first = x.first + l.countP (s.takesCurrent a.selects) := by
  induction l generalizing served x with
  | nil => exact ⟨h, rfl, rfl⟩
  | cons w l ih =>
    obtain ⟨hw, hl⟩ := List.pairwise_cons.mp hl
    obtain ⟨one, entries, first⟩ := State.cutVoice_spec hs hgroup h fun u hu => hlt u hu w List.mem_cons_self
    obtain ⟨rest, entries', first'⟩ := ih hl (s.cutVoice a x w) (fun u hu v hv => by
      rcases List.mem_cons.mp hu with rfl | hu
      · exact hw v hv
      · exact hlt u hu v (List.mem_cons_of_mem w hv)) one
    refine ⟨?_, entries'.trans entries, ?_⟩
    · rw [List.reverse_cons, List.append_assoc]
      exact rest
    · rw [List.foldl_cons, first', first, List.countP_cons]
      omega

end Serve

/-- Before the second phase, every voice is as the first phase left it. -/
theorem State.afterCut_nil (s : State) (selected : Cue → Bool) (v : VoiceId) :
    s.afterCut selected [] v = s.afterRemoval selected v := by
  cases hcur : s.takesCurrent selected v with
  | true => exact State.afterCut_waiting hcur (by simp)
  | false =>
    cases hin : s.takesIncoming selected v with
    | true => rw [State.afterCut_unclaimed hcur hin, State.afterRemoval, if_pos hin]
    | false =>
      rw [State.afterCut_other hcur hin, State.afterRemoval, hin]
      rfl

theorem State.chokedIf_congr {s t : State} {v : VoiceId} (hb : t.basis = s.basis) (hv : t.voice v = s.voice v) (p : Bool) :
    t.chokedIf v p = s.chokedIf v p := by
  rw [State.chokedIf, State.chokedIf, State.enterEnding_voice_congr .choked hb hv, hv]

/-- A choke reaches a PLAYING cue only. -/
theorem State.chokedIf_eq (s : State) (v : VoiceId) (p : Bool) :
    s.chokedIf v p = if (s.voice v).state = .active ∧ p = true then (s.enterEnding v .choked).voice v else s.voice v := by
  by_cases ha : (s.voice v).state = .active
  · simp only [State.chokedIf, ha, true_and]
  · rw [State.chokedIf, s.enterEnding_other .choked (.inl ha), ite_self, ite_self]

/-- The start of a cue does not look at the session's silence count (R167). -/
theorem State.startCue_heard (s : State) (v : VoiceId) (c : Cue) :
    (s.heard.startCue v c).basis = (s.startCue v c).basis ∧ (s.heard.startCue v c).voice v = (s.startCue v c).voice v := by
  refine ⟨?_, ?_⟩
  · rw [basis_of_ground (s.startCue_keeps v c).1, basis_of_ground (s.heard.startCue_keeps v c).1]
    rfl
  · rw [(s.startCue_voice v c).1, (s.heard.startCue_voice v c).1]
    exact State.sound_voice_congr v c rfl fun _ => rfl

theorem allVoices_ascending : allVoices.Pairwise (· < ·) := by decide

/-- CUE.CUT by mask and ALL: the two phases, with the counts of the cues as found. -/
theorem State.cutAddressed_spec {s : State} (hs : s.Placed) (a : Addressed)
    (hgroup : ∀ c d : Cue, c.group = d.group → a.selects c = a.selects d) :
    ∃ t,
      s.cutAddressed a =
        (t, answerOk
          [byteOf ((s.sched.entries.countP fun e => a.selects e.cue) + allVoices.countP (s.takesIncoming a.selects)),
            byteOf (allVoices.countP (s.takesCurrent a.selects))]) ∧
      t.ground = s.ground ∧ t.sched.entries = s.sched.entries.filter (fun e => !a.selects e.cue) ∧
      ∀ v, t.voice v = s.afterCut a.selects allVoices.reverse v := by
  obtain ⟨g, e, v, f⟩ := State.removeSelected_spec a .cut hs.tags
  have first : s.CutSoFar a.selects [] (s.removeSelected a .cut) := by
    refine ⟨g, fun u => (v u).trans ?_, fun u c _ hst => ?_⟩
    · exact (s.afterCut_nil a.selects u).symm
    · obtain ⟨-, hc, hsel⟩ := State.starting_some hst
      refine ⟨fun w k hk ht => ?_, f u c hc hsel⟩
      have hk' : (s.voice w).current = some k := by
        rw [← hk, v w]
        exact (State.afterRemoval_current w).symm
      exact hs.tags.incoming_ne_current hc hk' ht.symm
  obtain ⟨done, entries, count⟩ := State.cutVoices_spec hs hgroup allVoices allVoices_ascending
    { state := s.removeSelected a .cut, first := 0, second := 0 } (by simp) first
  rw [List.append_nil] at done
  refine ⟨_, ?_, done.ground, entries.trans e, done.voices⟩
  have phase := foldl_selectedCurrent (s := s) a Counted.cut { state := s.removeSelected a .cut, first := 0, second := 0 }
  rw [Nat.zero_add] at count
  rw [← count, State.cutAddressed, phase, State.removedCount_eq]
  rfl

/-- Settles O30. -/
theorem cueCutByMask : Obligations.CueCutByMask := by
  intro s num f h hs
  refine ⟨fun hf h0 => ?_, fun selected hsel => ?_⟩
  · rw [exec_cueCut h, ownCut_badMask hf h0]
    rfl
  · obtain ⟨a, rfl, -, cut, hgroup⟩ := Addresses.exists hsel
    obtain ⟨t, run, g, e, v⟩ := State.cutAddressed_spec (s := s.heard) ⟨hs.voices, hs.tags, hs.refs⟩ a hgroup
    refine ⟨t, ?_, e, fun u => ?_, time_of_basis (s := s.heard) (basis_of_ground g),
      pitchMap_of_basis (s := s.heard) (basis_of_ground g), congrArg Ground.triggers g, congrArg Ground.link g,
      congrArg Ground.pending g⟩
    · rw [exec_cueCut h, cut, run]
      rfl
    · rw [v u]
      refine ⟨fun hcur hi => ?_, fun hcur hin => ?_, fun c hst => ?_, fun hcur hin => ?_⟩
      · refine State.afterCut_idle hcur (by simp [mem_allVoices]) ?_
        rcases hi with hi | hi
        · exact ite_eq_right_iff.mpr fun _ => hi
        · exact State.starting_of_claimed (s := s.heard) hi
      · exact State.afterCut_unclaimed hcur hin
      · obtain ⟨hb, hv⟩ := s.startCue_heard u c
        rw [State.afterCut_started (s := s.heard) (by simp [mem_allVoices]) hst, State.chokedIf_congr hb hv,
          List.any_reverse]
        rfl
      · rw [State.afterCut_other (s := s.heard) hcur hin, List.any_reverse,
          State.chokedIf_congr (s := s) (t := s.heard) rfl rfl, State.chokedIf_eq]
        rfl

end Sys2Proof.Machine
end

section
/-! Entry to ENDING, the end of a cue on a voice, the handoff and the immediate end, written out (R38, R40 to R43). -/

namespace Sys2Proof.Machine

/-! ### Voice records and frozen streams -/

/-- The record of a synth voice carries nothing with it in the mixer (R100). -/
theorem State.putVoice_synth {s : State} {v : VoiceId} (h : v ≠ streamVoice) (r : Voice) :
    s.putVoice v r = { s with alloc := { s.alloc with voices := s.alloc.voices.set v r } } :=
  s.putVoice_plain v r fun e => absurd e h

theorem State.freezeStream_synth {s : State} {v : VoiceId} (h : v ≠ streamVoice) (tag : Tag) :
    s.freezeStream v tag = s := if_neg h

/-- The streams with the one bound to a tag frozen (R137). -/
def State.frozenStreams (s : State) (tag : Tag) : StreamUnit :=
  match s.boundSlot tag with
  | some i => { s.streams with slots := s.streams.slots.set i ((s.stream i).map fun x => { x with starve := none }) }
  | none => s.streams

/-- A freeze on the stream voice changes the streams alone. -/
theorem State.freezeStream_stream {s t : State} (h : t.streams = s.streams) (tag : Tag) :
    t.freezeStream streamVoice tag = { t with streams := s.frozenStreams tag } := by
  have same : t.frozenStreams tag = s.frozenStreams tag := by
    simp only [State.frozenStreams, State.boundSlot, State.stream, h]
  rw [State.freezeStream, if_pos rfl, ← same, State.frozenStreams]
  cases t.boundSlot tag <;> rfl

/-! ### Entry to ENDING (R41) -/

/-- Settles O26: a cue that is PLAYING takes the record of `Voice.ending`, and voice 6 freezes its stream. -/
theorem cuesEnterEnding : Obligations.CuesEnterEnding := by
  intro s v reason
  refine ⟨fun h => s.enterEnding_other reason (.inl h), fun k ha hk => ?_⟩
  rw [s.enterEnding_active reason ha hk]
  by_cases hv : v = streamVoice
  · subst hv
    rw [State.freezeStream_stream (State.putVoice_streams s _ _)]
    rfl
  · rw [State.freezeStream_synth hv, State.putVoice_synth hv]
    simp only [if_neg (show ¬v = 6 from hv)]
    rfl

/-! ### The end of a cue on a voice (R42) -/

theorem State.boundSlot_congr {s t : State} (h : t.streams = s.streams) (tag : Tag) : t.boundSlot tag = s.boundSlot tag := by
  simp only [State.boundSlot, State.stream, h]

theorem State.releaseCall_streams (s : State) (p : Option Player) : (s.releaseCall p).streams = s.streams := by
  rw [State.releaseCall]
  split <;> rfl

/-- The offer and the tag of a cue that ends, in the words of the statements (R42 steps 1 and 2). -/
theorem State.offer_dropTag (s : State) (kind : ReportKind) (tag : Tag) :
    (s.offer kind).dropTag tag =
      { s with
        sched := { s.sched with live := s.sched.live.filter fun x => decide (x ≠ tag) }
        reports := s.reports.offer kind s.time.tick } := by
  rw [← dropTag_live]
  rfl

/-- A voice record calls for ducking: it is ACTIVE with a cue whose duck flag is yes (R100). -/
def Voice.ducks (r : Voice) : Bool :=
  r.state == .active && r.current.any fun k => k.cue.duck

theorem duckTarget_eq (depth : Nat) (r : Voice) : duckTarget depth r = if r.ducks then depth else 0 := by
  obtain ⟨state, current, mode, incoming, env, player, osc⟩ := r
  cases state with
  | active => cases current <;> rfl
  | _ => rfl

/-- The duck target falls where the record of this voice makes way: it is voice 6, it calls for ducking, and the duck depth is
not 0 (R100). -/
def State.ducksOn (s : State) (v : VoiceId) : Bool :=
  v == 6 && (s.voice 6).ducks && s.mixer.duckDepth != 0

/-- The mixer when the duck target has changed: a move the old one has called for is made first (R100, log entry 19). -/
def Mixer.retargeted (m : Mixer) (old : Nat) : Mixer :=
  { m with duckAmount := if m.duckDue then (m.duckMove old).duckAmount else m.duckAmount, duckCount := 0 }

/-- A record of voice 6 that changes the duck target. -/
theorem State.putVoice_retargets {s : State} {r : Voice}
    (h : Machine.duckTarget s.mixer.duckDepth r ≠ s.duckTarget) :
    s.putVoice streamVoice r =
      { s with
        mixer := s.mixer.retargeted s.duckTarget
        alloc := { s.alloc with voices := s.alloc.voices.set streamVoice r } } := by
  have new : State.duckTarget { s with alloc := { s.alloc with voices := s.alloc.voices.set streamVoice r } } ≠ s.duckTarget := by
    simpa [State.duckTarget, State.voice] using h
  rw [State.putVoice, State.followDuck, if_neg new, Mixer.retargeted]
  cases s.mixer.duckDue <;> rfl

/-- A voice becomes IDLE; voice 6 lets the duck target fall with it (R100). -/
theorem State.putVoice_idle (s : State) (v : VoiceId) :
    s.putVoice v Voice.idle =
      { s with
        mixer := if s.ducksOn v then s.mixer.retargeted s.mixer.duckDepth else s.mixer
        alloc := { s.alloc with voices := s.alloc.voices.set v Voice.idle } } := by
  have falls : s.ducksOn v = true ↔ v = streamVoice ∧ (s.voice 6).ducks = true ∧ s.mixer.duckDepth ≠ 0 := by
    simp [State.ducksOn, streamVoice, and_assoc]
  split
  · rename_i h
    obtain ⟨hv, hd, h0⟩ := falls.mp h
    have old : s.duckTarget = s.mixer.duckDepth := (duckTarget_eq _ _).trans (if_pos hd)
    subst hv
    rw [State.putVoice_retargets (by rw [old]; exact Ne.symm h0), old]
  · rename_i h
    refine s.putVoice_plain v _ fun hv => Eq.symm ?_
    subst hv
    refine (duckTarget_eq _ _).trans (ite_eq_right_iff.mpr fun hd => ?_)
    by_contra h0
    exact h (falls.mpr ⟨rfl, hd, h0⟩)

/-- Settles O27: the end of a cue by its source and its call phrase, and the IDLE record with the mixer it leaves. -/
theorem releasesComplete : Obligations.ReleasesComplete := by
  refine ⟨fun s v k reason hk hreason => ?_, fun s v hr hs hl => ⟨?_, fun t => ?_⟩⟩
  · simp only [State.endCurrent, hk, hreason, Option.getD_some, State.offer_dropTag]
    rw [State.releaseSource, State.boundSlot_congr (State.releaseCall_streams _ _), State.releaseCall]
    cases (s.voice v).player.bind (·.call) with
    | none => cases k.cue.source <;> rfl
    | some call => cases k.cue.source <;> rfl
  · have stands : s.stands (.release v) = true := by simp only [State.stands, hs, hl]; rfl
    have run : exec (.releaseComplete v) s = s.event (.release v) := rfl
    rw [run, event_stands s _ hr stands]
    rfl
  · rw [State.putVoice_idle]
    simp only [State.ducksOn, Voice.ducks, Mixer.retargeted, Mixer.duckDue, beq_iff_eq, ← Bool.and_assoc]
    rfl

/-! ### The handoff and the immediate end of a current cue (R38, R40, R43) -/

theorem Voice.endingAtOnce_eq {r : Voice} {k : Current} (hk : r.current = some k) (reason : EndReason) :
    r.endingAtOnce reason =
      { r with
        env := { r.env with level := 0 }
        current :=
          some
            (if r.state = .active ∨ (r.state = .ending ∧ r.releaseMode = some .normal ∧ reason = .cut) then
              k.withReason reason
            else k) } := by
  rw [Voice.endingAtOnce, hk]
  split <;> rfl

/-- Settles O49. The record of the ended cue is `Voice.endingAtOnce_eq`. -/
theorem handoffsComplete : Obligations.HandoffsComplete := by
  refine ⟨fun s v c hr hs hl hc => ?_, fun s v k reason hk => ?_⟩
  · have stands : s.stands (.handoff v) = true := by simp only [State.stands, hs, hl]; rfl
    have run : exec (.handoffComplete v) s = s.event (.handoff v) := rfl
    rw [run, event_stands s _ hr stands, State.carry, State.handOver, hc]
    rfl
  · refine ⟨fun h => ?_, fun c h => ?_⟩
    · rw [State.endAtOnce_idle reason hk h, State.vacated, Voice.endingAtOnce_eq hk]
      rfl
    · rw [State.endAtOnce_starts reason hk h, State.vacated, Voice.endingAtOnce_eq hk]
      rfl

end Sys2Proof.Machine
end

section
/-! Allocation passes: the order of service, and the service of one WAITING cue (R28, R31 to R36). -/

namespace Sys2Proof.Machine

/-! ### The order of service (R31) -/

/-- A list of entries in order of priority, highest first. -/
def Descending (l : List Entry) : Prop := l.Pairwise fun a b => b.cue.priority ≤ a.cue.priority

theorem insertByPriority_perm (e : Entry) (l : List Entry) : (insertByPriority e l).Perm (e :: l) := by
  induction l with
  | nil => exact .refl _
  | cons x l ih =>
    unfold insertByPriority
    split
    · exact .refl _
    · exact (ih.cons x).trans (.swap e x l)

theorem Descending.insert {l : List Entry} (h : Descending l) (e : Entry) : Descending (insertByPriority e l) := by
  induction l with
  | nil => exact List.pairwise_singleton _ e
  | cons x l ih =>
    obtain ⟨hx, hl⟩ := List.pairwise_cons.mp h
    unfold insertByPriority
    split
    · rename_i hlt
      refine List.pairwise_cons.mpr ⟨fun y hy => ?_, h⟩
      rcases List.mem_cons.mp hy with rfl | hy
      · exact hlt.le
      · exact (hx y hy).trans hlt.le
    · rename_i hge
      refine List.pairwise_cons.mpr ⟨fun y hy => ?_, ih hl⟩
      rcases List.mem_cons.mp ((insertByPriority_perm e l).mem_iff.mp hy) with rfl | hy
      · exact Nat.not_lt.mp hge
      · exact hx y hy

/-- Among entries of one priority a new entry is the last. -/
theorem Descending.insert_filter {l : List Entry} (h : Descending l) (e : Entry) (p : Nat) :
    (insertByPriority e l).filter (fun x => x.cue.priority == p) =
      l.filter (fun x => x.cue.priority == p) ++ [e].filter fun x => x.cue.priority == p := by
  induction l with
  | nil => rfl
  | cons x l ih =>
    obtain ⟨hx, hl⟩ := List.pairwise_cons.mp h
    unfold insertByPriority
    split
    · rename_i hlt
      by_cases hp : e.cue.priority = p
      · have none_left : (x :: l).filter (fun x => x.cue.priority == p) = [] := by
          refine List.filter_eq_nil_iff.mpr fun y hy => ?_
          have : y.cue.priority ≤ x.cue.priority := by
            rcases List.mem_cons.mp hy with rfl | hy
            · exact le_rfl
            · exact hx y hy
          rw [beq_iff_eq]
          omega
        rw [List.filter_cons_of_pos (by simpa using hp), none_left, List.filter_cons_of_pos (by simpa using hp)]
        rfl
      · rw [List.filter_cons_of_neg (a := e) (by simpa using hp), List.filter_cons_of_neg (a := e) (by simpa using hp),
          List.filter_nil, List.append_nil]
    · rw [List.filter_cons, List.filter_cons, ih hl]
      split <;> rfl

/-- The entries of a list, put one by one into an ordered list, are in order of priority, and among equals in the order of the
list. -/
theorem foldl_insertByPriority_spec (l acc : List Entry) (h : Descending acc) :
    let order := l.foldl (fun acc e => insertByPriority e acc) acc
    order.Perm (acc ++ l) ∧ Descending order ∧
      ∀ p, order.filter (fun e => e.cue.priority == p) = (acc ++ l).filter fun e => e.cue.priority == p := by
  induction l generalizing acc with
  | nil => exact ⟨by simp, h, fun p => by simp⟩
  | cons e l ih =>
    obtain ⟨perm, sorted, stable⟩ := ih _ (h.insert e)
    refine ⟨perm.trans (((insertByPriority_perm e acc).append_right l).trans List.perm_middle.symm), sorted, fun p => ?_⟩
    rw [List.foldl_cons, stable p, List.filter_append, h.insert_filter e p, List.append_assoc, ← List.filter_append,
      ← List.filter_append]
    rfl

/-- Settles O47: the order is the insertion sort by priority of the WAITING entries, which is stable. -/
theorem passesServeInOrder : Obligations.PassesServeInOrder := by
  intro s hr hp
  obtain ⟨perm, sorted, stable⟩ :=
    foldl_insertByPriority_spec (s.sched.entries.filter fun e => e.state == .waiting) [] List.Pairwise.nil
  refine ⟨_, perm, sorted, fun p => ?_, ?_⟩
  · rw [stable p, List.nil_append, List.filter_filter]
    exact List.filter_congr fun e _ => Bool.and_comm _ _
  · have run : exec .allocationPass s = s.event .pass := rfl
    have stands : s.stands .pass = true := decide_eq_true hp
    rw [run, event_stands s _ hr stands]
    rfl

/-! ### The choice of a voice (R28, R33, R34) -/

theorem earlier_self (a : Tick) : earlier a a = false := by simp [earlier]

/-- Of two ticks at most one is earlier (R106). -/
theorem earlier_asymm {a b : Tick} (h : earlier a b = true) : earlier b a = false := by
  simp only [earlier, Bool.and_eq_true, bne_iff_ne, decide_eq_true_eq, Bool.and_eq_false_iff, decide_eq_false_iff_not] at *
  right
  bv_omega

theorem Source.voices_ascending (c : Source) : c.voices.Pairwise (· < ·) := by
  cases c with
  | stream id => exact List.pairwise_singleton _ streamVoice
  | _ => exact (by decide : synthVoices.Pairwise (· < ·))

/-- The voices of a cue's class (R28). -/
theorem Source.mem_voices (c : Source) (v : VoiceId) :
    v ∈ c.voices ↔ match c with
      | .stream _ => v.val = 6
      | _ => v.val < 6 := by
  have synth : v ∈ synthVoices ↔ v.val < 6 := by revert v; decide
  cases c with
  | stream id => exact List.mem_singleton.trans Fin.ext_iff
  | _ => exact synth

/-- The first member of an ascending list that satisfies a test. -/
theorem find?_ascending {l : List VoiceId} (hl : l.Pairwise (· < ·)) {p : VoiceId → Bool} {v : VoiceId} (hv : v ∈ l)
    (hp : p v = true) (first : ∀ u ∈ l, u < v → p u = false) : l.find? p = some v := by
  obtain ⟨as, bs, rfl⟩ := List.append_of_mem hv
  refine List.find?_eq_some_iff_append.mpr ⟨hp, as, bs, rfl, fun u hu => ?_⟩
  have below : u < v := (List.pairwise_append.mp hl).2.2 u hu v List.mem_cons_self
  rw [first u (List.mem_append_left _ hu) below]
  rfl

theorem State.stealable_eq_some (s : State) (c : Cue) (v : VoiceId) (x : VoiceId × Current) :
    s.stealable c v = some x ↔
      x.1 = v ∧ (s.voice v).state = .active ∧ (s.voice v).current = some x.2 ∧ x.2.cue.priority < c.priority := by
  obtain ⟨w, k⟩ := x
  unfold State.stealable
  split
  · rename_i j ha hj
    simp only [ha, hj, Option.some.injEq, true_and]
    split
    · rename_i hlt
      simp only [Option.some.injEq, Prod.mk.injEq]
      refine ⟨?_, ?_⟩
      · rintro ⟨rfl, rfl⟩
        exact ⟨rfl, rfl, hlt⟩
      · rintro ⟨rfl, rfl, -⟩
        exact ⟨rfl, rfl⟩
    · rename_i hge
      refine ⟨nofun, ?_⟩
      rintro ⟨-, rfl, h⟩
      exact absurd h hge
  · rename_i h
    refine ⟨nofun, fun ⟨_, ha, hk, _⟩ => absurd hk (h k ha)⟩

/-- A candidate that no other one comes before is kept to the end. -/
theorem foldl_betterCandidate_keeps {l : List (VoiceId × Current)} {x : VoiceId × Current}
    (h : ∀ y ∈ l, beforeCandidate y.2 x.2 = false) : l.foldl betterCandidate (some x) = some x := by
  induction l with
  | nil => rfl
  | cons y l ih =>
    rw [List.foldl_cons, betterCandidate, h y List.mem_cons_self]
    exact ih fun z hz => h z (List.mem_cons_of_mem _ hz)

/-- The candidate that comes before those in front of it, and that none behind it comes before, is chosen. -/
theorem foldl_betterCandidate_chooses {as bs : List (VoiceId × Current)} {x : VoiceId × Current}
    (front : ∀ y ∈ as, beforeCandidate x.2 y.2 = true) (back : ∀ y ∈ bs, beforeCandidate y.2 x.2 = false) :
    (as ++ x :: bs).foldl betterCandidate none = some x := by
  have taken : betterCandidate (as.foldl betterCandidate none) x = some x := by
    cases hb : as.foldl betterCandidate none with
    | none => rfl
    | some y =>
      rcases foldl_betterCandidate_mem _ _ _ hb with h | h
      · cases h
      · rw [betterCandidate, front y h]
        rfl
  rw [List.foldl_append, List.foldl_cons, taken, foldl_betterCandidate_keeps back]

/-- A voice of the cue's class that plays a cue of lower priority (R34). -/
def State.Lower (s : State) (c : Cue) (v : VoiceId) (k : Current) : Prop :=
  v ∈ c.source.voices ∧ (s.voice v).state = .active ∧ (s.voice v).current = some k ∧ k.cue.priority < c.priority

theorem State.mem_stealable {s : State} {c : Cue} {l : List VoiceId} (hl : ∀ u ∈ l, u ∈ c.source.voices)
    {y : VoiceId × Current} (hy : y ∈ l.filterMap (s.stealable c)) : y.1 ∈ l ∧ s.Lower c y.1 y.2 := by
  obtain ⟨u, hu, hs⟩ := List.mem_filterMap.mp hy
  obtain ⟨rfl, ha, hk, hlt⟩ := (s.stealable_eq_some c u y).mp hs
  exact ⟨hu, hl _ hu, ha, hk, hlt⟩

/-- The candidate of lowest priority, among equals that of the earliest start tick, and then of the lowest number, is chosen
(R34). -/
theorem State.candidate_best {s : State} {c : Cue} {v : VoiceId} {k : Current} (hv : s.Lower c v k)
    (best : ∀ u j, s.Lower c u j → u ≠ v →
      k.cue.priority < j.cue.priority ∨
        (k.cue.priority = j.cue.priority ∧
          (earlier k.startTick j.startTick = true ∨ (k.startTick = j.startTick ∧ v < u)))) :
    s.candidate c = some v := by
  obtain ⟨hmem, ha, hk, hlt⟩ := hv
  obtain ⟨as, bs, hl⟩ := List.append_of_mem hmem
  obtain ⟨-, hbs, below⟩ := List.pairwise_append.mp (hl ▸ c.source.voices_ascending)
  have own : s.stealable c v = some (v, k) := (s.stealable_eq_some c v (v, k)).mpr ⟨rfl, ha, hk, hlt⟩
  rw [State.candidate, hl, List.filterMap_append, List.filterMap_cons_some own, foldl_betterCandidate_chooses]
  · rfl
  · intro y hy
    obtain ⟨hy, lower⟩ := State.mem_stealable (fun u hu => hl ▸ List.mem_append_left _ hu) hy
    have before : y.1 < v := below _ hy v List.mem_cons_self
    rcases best _ _ lower before.ne with h | ⟨h, he | ⟨-, after⟩⟩
    · simp [beforeCandidate, h]
    · simp [beforeCandidate, h, he]
    · exact absurd before after.asymm
  · intro y hy
    obtain ⟨hy, lower⟩ := State.mem_stealable (fun u hu => hl ▸ List.mem_append_right _ (List.mem_cons_of_mem _ hu)) hy
    have after : v < y.1 := (List.pairwise_cons.mp hbs).1 _ hy
    rcases best _ _ lower after.ne' with h | ⟨h, he | ⟨he, -⟩⟩
    · simp [beforeCandidate, h.le, h.ne']
    · simp [beforeCandidate, h, earlier_asymm he]
    · simp [beforeCandidate, h, he, earlier_self]

theorem State.candidate_none {s : State} {c : Cue} (h : ∀ v k, ¬s.Lower c v k) : s.candidate c = none := by
  have nobody : c.source.voices.filterMap (s.stealable c) = [] :=
    List.eq_nil_iff_forall_not_mem.mpr fun y hy => h _ _ (State.mem_stealable (fun _ hu => hu) hy).2
  rw [State.candidate, nobody]
  rfl

theorem State.idleVoice_lowest {s : State} {c : Cue} {v : VoiceId} (hv : v ∈ c.source.voices) (hi : (s.voice v).state = .idle)
    (first : ∀ u ∈ c.source.voices, u < v → (s.voice u).state ≠ .idle) : s.idleVoice c = some v :=
  find?_ascending c.source.voices_ascending hv (beq_iff_eq.mpr hi) fun u hu hlt => beq_eq_false_iff_ne.mpr (first u hu hlt)

theorem State.idleVoice_none {s : State} {c : Cue} (h : ∀ v ∈ c.source.voices, (s.voice v).state ≠ .idle) :
    s.idleVoice c = none :=
  List.find?_eq_none.mpr fun v hv => by simpa using h v hv

/-! ### The service of one WAITING cue (R32 to R36) -/

/-- A STREAM cue is skipped when no READY stream is bound to it (R32). -/
theorem State.skips_iff (s : State) (c : Cue) :
    s.skips c = true ↔
      ∃ id, c.source = .stream id ∧ ∀ i t, s.boundSlot c.tag = some i → s.stream i = some t → t.state ≠ .ready := by
  unfold State.skips
  cases hs : c.source with
  | stream id =>
    cases hb : s.boundSlot c.tag with
    | none => simp
    | some i =>
      have bound : (∀ j t, some i = some j → s.stream j = some t → t.state ≠ .ready) ↔
          ∀ t, s.stream i = some t → t.state ≠ .ready :=
        ⟨fun h t => h i t rfl, fun h j t e => by cases e; exact h t⟩
      simp only [Source.stream.injEq, exists_eq_left', bound]
      cases s.stream i <;> simp
  | _ => simp

theorem State.serveCue_skipped {s : State} {c : Cue} (h : s.skips c = true) : s.serveCue c = s := if_pos h

theorem State.serveCue_idle {s : State} {c : Cue} {v : VoiceId} (h : ¬s.skips c = true) (hv : s.idleVoice c = some v) :
    s.serveCue c = (s.dropEntry c.tag).startCue v c.placed := by
  rw [State.serveCue, if_neg h, hv]

theorem State.serveCue_steals {s : State} {c : Cue} {v : VoiceId} (h : ¬s.skips c = true) (hi : s.idleVoice c = none)
    (hv : s.candidate c = some v) : s.serveCue c = s.steal v c := by
  rw [State.serveCue, if_neg h, hi, hv]

theorem State.serveCue_none {s : State} {c : Cue} (h : ¬s.skips c = true) (hi : s.idleVoice c = none)
    (hv : s.candidate c = none) : s.serveCue c = if c.window = 0 then s.removeEntry c.tag .noVoice else s := by
  rw [State.serveCue, if_neg h, hi, hv]

/-- The record of a stolen voice (R35). -/
def Voice.stolen (r : Voice) (k : Current) (c : Cue) : Voice :=
  { r.rateStep with
    state := .handoff
    releaseMode := some .fast
    current := some (k.withReason .stolen)
    incoming := some c.placed
    env := r.rateStep.env.fastRelease }

theorem State.steal_eq {s : State} {v : VoiceId} {k : Current} (hk : (s.voice v).current = some k) (c : Cue) :
    s.steal v c = ((s.dropEntry c.tag).putVoice v ((s.voice v).stolen k c)).freezeStream v k.cue.tag := by
  simp only [State.steal, Voice.rateStep_current, hk]
  rfl

/-- The steal of voice 6 freezes the departing stream (R137). -/
theorem State.steal_stream {s : State} {k : Current} (hk : (s.voice streamVoice).current = some k) (c : Cue) :
    s.steal streamVoice c =
      { (s.dropEntry c.tag).putVoice streamVoice ((s.voice streamVoice).stolen k c) with
        streams := s.frozenStreams k.cue.tag } := by
  rw [State.steal_eq hk, State.freezeStream_stream (s := s)]
  exact State.putVoice_streams _ _ _

theorem State.steal_synth {s : State} {v : VoiceId} {k : Current} (hv : v ≠ streamVoice) (hk : (s.voice v).current = some k)
    (c : Cue) : s.steal v c = (s.dropEntry c.tag).putVoice v ((s.voice v).stolen k c) := by
  rw [State.steal_eq hk, State.freezeStream_synth hv]

/-- Settles O48, by the four outcomes of `State.serveCue`. -/
theorem passesPlaceStealOrLeave : Obligations.PassesPlaceStealOrLeave := by
  intro s l1 l2 e hs hu hw
  have found : (s.sched.entries.find? fun x => x.cue.tag == e.cue.tag) = some e := by rw [hs]; exact find_entry hu
  have served : s.serveTag e.cue.tag = s.serveCue e.cue := by simp only [State.serveTag, found, hw, if_true]
  have left : s.dropEntry e.cue.tag = { s with sched := { s.sched with entries := l1 ++ l2 } } := by
    rw [State.dropEntry, hs, drop_entry hu]
  have inClass := e.cue.source.mem_voices
  dsimp only
  rw [served, ← s.skips_iff e.cue]
  refine ⟨State.serveCue_skipped, fun hk => ⟨fun v hv hi first => ?_, fun busy => ?_⟩⟩
  · rw [State.serveCue_idle hk (State.idleVoice_lowest ((inClass v).mpr hv) hi fun u hu => first u ((inClass u).mp hu)), left]
    rfl
  have idle : s.idleVoice e.cue = none := State.idleVoice_none fun v hv => busy v ((inClass v).mp hv)
  refine ⟨fun v k hv best => ?_, fun nobody => ?_⟩
  · obtain ⟨hmem, ha, hcur, hlt⟩ := hv
    have chosen : s.candidate e.cue = some v :=
      State.candidate_best ⟨(inClass v).mpr hmem, ha, hcur, hlt⟩ fun u j ⟨hu, lower⟩ => best u j ⟨(inClass u).mp hu, lower⟩
    rw [State.serveCue_steals hk idle chosen]
    by_cases h6 : v = streamVoice
    · subst h6
      rw [State.steal_stream hcur, left, State.frozenStreams]
      cases s.boundSlot k.cue.tag <;> rfl
    · rw [State.steal_synth h6 hcur, left]
      split
      · rename_i h _
        exact absurd (Fin.ext h) h6
      · simp only [State.putVoice_synth h6]
        rfl
  · exact State.serveCue_none hk idle (State.candidate_none fun v k ⟨hv, lower⟩ => nobody v k ⟨(inClass v).mp hv, lower⟩)

end Sys2Proof.Machine
end

section
/-! How a cue starts on a voice, and the choke of its group (R33, R45, R75, R86, R94, R98). -/

namespace Sys2Proof.Machine

/-! ### The record of a starting cue (R33, R94, R98) -/

/-- An envelope that moves from level 0: at once where the target is 0 or the attack rate is 0, else in ATTACK (R71, R72). -/
theorem Envelope.quiet_approach (target : Nat) (rates : Rates) :
    Envelope.quiet.approach target rates =
      { phase := if (if target = 0 ∨ rates.attack = 0 then target else 0) = target then .hold else .attack
        level := if target = 0 ∨ rates.attack = 0 then target else 0
        target := target
        rateCount := 0 } := by
  unfold Envelope.approach Envelope.quiet
  rcases Nat.eq_zero_or_pos target with rfl | hpos
  · rfl
  · by_cases ha : rates.attack = 0
    · simp only [hpos.ne, hpos, ha, if_true, if_false, or_true]
    · simp only [hpos.ne, hpos.ne', hpos, ha, if_true, if_false, or_self]

/-- A cue on a synth voice with its player: the record stands, and CUE_STARTED has been offered. -/
theorem State.onVoice_putPlayer {s : State} {v : VoiceId} (hv : v ≠ streamVoice) (c : Cue) (p : Player) (env : Envelope) :
    (s.onVoice v c).putPlayer v p env =
      { s with
        alloc :=
          { s.alloc with
            voices := s.alloc.voices.set v { Voice.starting v c s.now with player := some p, env := env } }
        reports := s.reports.offer (.cueStarted c.tag v) s.time.tick } := by
  have record : (s.onVoice v c).voice v = Voice.starting v c s.now := s.putVoice_same v _
  rw [State.putPlayer, record, State.putVoice_synth hv, State.onVoice, State.putVoice_synth hv]
  simp only [State.offer, Vector.set_set]

theorem Voice.starting_synth {v : VoiceId} (hv : v ≠ streamVoice) (c : Cue) (now : Tick) :
    Voice.starting v c now =
      { state := .active, current := some { cue := c, startTick := now }, releaseMode := none, incoming := none,
        env := Envelope.quiet, player := none, osc := some Oscillator.fresh } := by
  rw [Voice.starting, if_neg hv, if_neg hv]

theorem Voice.starting_stream (c : Cue) (now : Tick) :
    Voice.starting streamVoice c now =
      { state := .active, current := some { cue := c, startTick := now }, releaseMode := none, incoming := none,
        env := { phase := .hold, level := c.volume, target := c.volume, rateCount := 0 }, player := none, osc := none } := by
  rw [Voice.starting, if_pos rfl, if_pos rfl, Envelope.quiet_approach]
  simp only [or_true, if_true]

/-- The start of a cue on a synth voice, up to its player. -/
theorem State.startCue_synth {s : State} {v : VoiceId} (hv : v ≠ streamVoice) (c : Cue) :
    s.startCue v c = ((s.onVoice v c).startPlayer v c).choke v c := by
  rw [State.startCue_eq, State.sound, if_neg hv]

/-! ### The one note of a TONE or NOISE cue (R86) -/

theorem State.putPlayer_voice (s : State) (v : VoiceId) (p : Player) (env : Envelope) :
    (s.putPlayer v p env).voice v = { s.voice v with player := some p, env := env } := s.putVoice_same v _

theorem State.putPlayer_putPlayer {s : State} {v : VoiceId} (hv : v ≠ streamVoice) (p p' : Player) (env env' : Envelope) :
    (s.putPlayer v p env).putPlayer v p' env' = s.putPlayer v p' env' := by
  rw [State.putPlayer, State.putPlayer_voice]
  simp only [State.putPlayer, State.putVoice_synth hv, Vector.set_set]

/-- A note whose map entry is 0 is a REST (R76). -/
theorem State.startTone_rest {s : State} {v : VoiceId} (hv : v ≠ streamVoice) {c : Cue} {rates : Rates}
    (hr : c.rates = some rates) {note : Note} (hp : s.pitchMap[note] = 0) (d : Nat) (shape : Shape) :
    s.startTone v c note d shape =
      s.putPlayer v { Player.forNote shape rates with stepTicks := some d } Envelope.quiet := by
  have silent : (s.putPlayer v (Player.forNote shape rates) Envelope.quiet).pitchMap[note] = 0 := by
    rw [State.putPlayer, State.putVoice_pitchMap, hp]
  rw [State.startTone, hr, Option.getD_some, State.startNote, if_pos silent, State.startRest, State.putPlayer_putPlayer hv,
    State.putPlayer_voice]
  rfl

theorem State.startTone_note {s : State} {v : VoiceId} (hv : v ≠ streamVoice) {c : Cue} {rates : Rates}
    (hr : c.rates = some rates) {note : Note} (hp : s.pitchMap[note] ≠ 0) (d : Nat) (shape : Shape) :
    s.startTone v c note d shape =
      s.putPlayer v
        { Player.forNote shape rates with
          period := s.pitchMap[note]
          stepTicks := some d
          gateTicks := some (max 1 d)
          stepVolume := some 15
          legato := true }
        (Envelope.quiet.approach c.volume rates) := by
  have map : (s.putPlayer v (Player.forNote shape rates) Envelope.quiet).pitchMap = s.pitchMap := s.putVoice_pitchMap v _
  have gate : gateTicksOf d 8 = max 1 d := by rw [gateTicksOf, Nat.mul_div_cancel d (by decide)]
  have target : noteTarget 15 c.volume = c.volume := Nat.mul_div_cancel_left c.volume (by decide)
  rw [State.startTone, hr, Option.getD_some, State.startNote]
  simp only [map, if_neg hp]
  rw [State.putPlayer_putPlayer hv, State.putPlayer_voice]
  simp only [durationTicks, Bool.false_eq_true, if_false, gate, target]
  rfl

/-! ### How cues start -/

/-- The player's start of a TONE or NOISE cue is that of its note. -/
theorem State.startPlayer_note (s : State) (v : VoiceId) {c : Cue} {note : Note} {d : Nat} {shape : Shape}
    (h : c.source = .tone note d shape ∨ (c.source = .noise note d ∧ shape = .noise)) :
    s.startPlayer v c = s.startTone v c note d shape := by
  rcases h with h | ⟨h, rfl⟩ <;> rw [State.startPlayer, h]

/-- The start of a STREAM cue: its stream plays, and with an empty list its data is already at its end (R131). -/
theorem State.startStream_bound {s : State} {c : Cue} {i : StreamSlotId} {t : OpenStream} (hi : s.boundSlot c.tag = some i)
    (ht : s.stream i = some t) :
    s.startStream c =
      if t.filled = [] then
        (s.putStream i
          (some { t with state := .playing, read := some { index := 0, holdCount := 0 } })).enterEnding streamVoice .finished
      else s.putStream i (some { t with state := .playing, read := some { index := 0, holdCount := 0 } }) := by
  simp only [State.startStream, hi, ht]

/-- Settles O50: the start by the kind of source, and the choke by `State.choke_spec`. -/
theorem cuesStart : Obligations.CuesStart := by
  refine ⟨fun s v c note d shape rates hv hs hr => ?_, fun s v c id hv hs => ?_, fun s c id i t hs hi ht => ?_,
    fun s v c => ⟨fun h => ?_, fun he hg u => ?_⟩⟩
  · have map : (s.onVoice v c).pitchMap = s.pitchMap := s.putVoice_pitchMap v _
    rw [State.startCue_synth hv, State.startPlayer_note _ _ hs]
    by_cases hp : s.pitchMap[note] = 0
    · rw [State.startTone_rest hv hr (by rw [map, hp]), State.onVoice_putPlayer hv, Voice.starting_synth hv]
      simp only [hp, if_true]
      rfl
    · rw [State.startTone_note hv hr (by rwa [map]), State.onVoice_putPlayer hv, Voice.starting_synth hv,
        Envelope.quiet_approach]
      simp only [map, hp, if_false, ne_eq, not_false_eq_true, decide_true]
      rfl
  · have header : (s.onVoice v c).phrase id = s.phrase id := by
      rw [State.phrase, State.onVoice, State.offer_store, State.putVoice_store]
    rw [State.startCue_synth hv, State.startPlayer, hs]
    simp only [header]
    rw [State.onVoice_putPlayer hv, Voice.starting_synth hv]
    rfl
  · have six : (6 : VoiceId) = streamVoice := rfl
    have streams : (s.onVoice 6 c).streams = s.streams := s.putVoice_streams 6 _
    have slot : (s.onVoice 6 c).boundSlot c.tag = some i := (State.boundSlot_congr streams c.tag).trans hi
    have stream : (s.onVoice 6 c).stream i = some t := by rw [State.stream, streams]; exact ht
    rw [State.startCue_eq, State.sound, if_pos six, State.startStream_bound slot stream, State.onVoice, six,
      Voice.starting_stream]
  · rw [State.choke, if_neg fun k => ?_]
    rcases h with h | h
    · rw [h] at k; cases k.1
    · exact k.2 h
  · rw [(s.choke_spec v c).2 u]
    refine if_congr ?_ rfl rfl
    simp [Voice.chokedBy_iff, Option.any_eq_true, he, hg]

end Sys2Proof.Machine
end

section
/-! The phrase store's requests, each of their outcomes said once (R57 to R61), and what a written slot does to the
pages (R54, R55). -/

namespace Sys2Proof.Machine

/-! ### The outcomes of PHRASE.BEGIN, PHRASE.END and PHRASE.DROP (R57, R60, R61) -/

/-- The header fields 2 to 5 of PHRASE.BEGIN (11.6). -/
def readHeader (f : List Byte) : Header :=
  { shape := Shape.ofCode (u8 f 1)
    rates := { attack := (u8 f 2).toNat, release := (u8 f 3).toNat }
    tempoRelative := u8 f 4 == 1 }

/-- A slot in which building has begun: it holds its header and no step (R57). -/
def PhraseSlot.begun (header : Header) : PhraseSlot :=
  { state := .building, header := some header, stepCount := 0, pages := [], refs := 0 }

/-- The store after an accepted PHRASE.BEGIN (R57). -/
def PhraseStore.begun (ps : PhraseStore) (id : PhraseId) (header : Header) : PhraseStore :=
  { ps.putSlot id (PhraseSlot.begun header) with build := some id }

/-- The store after an accepted PHRASE.END (R60). -/
def PhraseStore.ended (ps : PhraseStore) (id : PhraseId) : PhraseStore :=
  { ps.putSlot id { ps.slots[id] with state := .ready } with build := none }

section
variable {f : List Byte} {s : State}

theorem ownBegin_exists (h : (s.phrase (phraseOf (u8 f 0))).state ≠ .empty) : ownBegin f s = (s, refuse .exists) :=
  if_pos h

theorem ownBegin_busy (h : (s.phrase (phraseOf (u8 f 0))).state = .empty) (hb : s.store.build ≠ none) :
    ownBegin f s = (s, refuse .buildBusy) :=
  (if_neg (not_not.mpr h)).trans (if_pos (Option.isSome_iff_ne_none.mpr hb))

theorem ownBegin_accepted (h : (s.phrase (phraseOf (u8 f 0))).state = .empty) (hb : s.store.build = none) :
    ownBegin f s =
      ({ s with store := s.store.begun (phraseOf (u8 f 0)) (readHeader f) },
        answerOk [byteOf (phraseOf (u8 f 0)).val, byteOf s.store.freePages.length]) :=
  (if_neg (not_not.mpr h)).trans (if_neg (by simp [hb]))

theorem ownEnd_idle (h : s.store.build = none) : ownEnd f s = (s, refuse .phraseState) := by
  simp only [ownEnd, h]

theorem ownEnd_untimed {id : PhraseId} (h : s.store.build = some id) (ht : s.store.timedCount (s.phrase id) = 0) :
    ownEnd f s = (s, refuse .noTimedStep) := by
  simp only [ownEnd, h, if_pos ht]

theorem ownEnd_accepted {id : PhraseId} (h : s.store.build = some id) (ht : s.store.timedCount (s.phrase id) ≠ 0) :
    ownEnd f s =
      ({ s with store := s.store.ended id },
        answerOk ([byteOf id.val] ++ be16 (halfOf (s.phrase id).stepCount) ++ [byteOf (s.phrase id).pages.length])) := by
  simp only [ownEnd, h, if_neg ht]
  rfl

theorem ownDrop_empty (h : (s.phrase (phraseOf (u8 f 0))).state = .empty) : ownDrop f s = (s, refuse .phraseState) :=
  if_pos h

theorem ownDrop_inUse (h : (s.phrase (phraseOf (u8 f 0))).state ≠ .empty)
    (hr : 0 < (s.phrase (phraseOf (u8 f 0))).refs) :
    ownDrop f s = (s, { status := .inUse, results := [byteOf (s.phrase (phraseOf (u8 f 0))).refs] }) :=
  (if_neg h).trans (if_pos hr)

theorem ownDrop_accepted (h : (s.phrase (phraseOf (u8 f 0))).state ≠ .empty)
    (hr : (s.phrase (phraseOf (u8 f 0))).refs = 0) :
    ownDrop f s =
      ({ s with store := s.store.drop (phraseOf (u8 f 0)) },
        answerOk
          [byteOf (phraseOf (u8 f 0)).val, byteOf (s.phrase (phraseOf (u8 f 0))).pages.length,
            byteOf (s.store.freePages ++ (s.phrase (phraseOf (u8 f 0))).pages).length]) :=
  (if_neg h).trans (if_neg (by omega))

/-! ### The outcomes of PHRASE.ADD (R58, R59) -/

/-- The pages that a phrase takes for n further steps (R59). -/
def PhraseSlot.need (p : PhraseSlot) (n : Nat) : Nat :=
  pagesFor (p.stepCount + n) - p.pages.length

theorem ownAdd_idle (h : s.store.build = none) : ownAdd f s = (s, refuse .phraseState) := by
  simp only [ownAdd, h]

variable {id : PhraseId}

theorem ownAdd_tooLong (h : s.store.build = some id) (hl : 256 < (s.phrase id).stepCount + (u8 f 0).toNat) :
    ownAdd f s = (s, { status := .tooLong, results := be16 (halfOf (s.phrase id).stepCount) }) := by
  simp only [ownAdd, h, Config.maxSteps, if_pos hl]

theorem ownAdd_noSpace (h : s.store.build = some id) (hl : (s.phrase id).stepCount + (u8 f 0).toNat ≤ 256)
    (hp : s.store.freePages.length < (s.phrase id).need (u8 f 0).toNat) :
    ownAdd f s = (s, { status := .noSpace, results := [byteOf s.store.freePages.length] }) := by
  simp only [ownAdd, h, Config.maxSteps, if_neg (Nat.not_lt.mpr hl)]
  exact if_pos hp

theorem ownAdd_badStep (h : s.store.build = some id) (hl : (s.phrase id).stepCount + (u8 f 0).toNat ≤ 256)
    (hp : (s.phrase id).need (u8 f 0).toNat ≤ s.store.freePages.length) {k : Nat}
    (hk : (readSteps f (u8 f 0).toNat id).findIdx? Option.isNone = some k) :
    ownAdd f s = (s, badParam 2 (byteOf k)) := by
  simp only [ownAdd, h, Config.maxSteps, if_neg (Nat.not_lt.mpr hl), hk]
  exact if_neg (Nat.not_lt.mpr hp)

/-- PHRASE.ADD accepted: the steps offered are all steps, and are appended. -/
theorem ownAdd_accepted (h : s.store.build = some id) (hl : (s.phrase id).stepCount + (u8 f 0).toNat ≤ 256)
    (hp : (s.phrase id).need (u8 f 0).toNat ≤ s.store.freePages.length) {steps : List Step}
    (hs : readSteps f (u8 f 0).toNat id = steps.map some) :
    ownAdd f s =
      ({ s with store := s.store.addSteps id steps },
        answerOk
          (be16 (halfOf ((s.store.addSteps id steps).slots[id]).stepCount) ++
            [byteOf ((s.store.addSteps id steps).slots[id]).pages.length,
              byteOf (s.store.addSteps id steps).freePages.length])) := by
  have none_bad : (steps.map some).findIdx? Option.isNone = none := by simp
  have all : (steps.map some).filterMap (fun x => x) = steps := by simp
  simp only [ownAdd, h, Config.maxSteps, if_neg (Nat.not_lt.mpr hl), hs, none_bad, all]
  exact if_neg (Nat.not_lt.mpr hp)

end

/-- Steps none of which is bad are read as steps. -/
theorem eq_map_some {α : Type} {l : List (Option α)} (h : l.findIdx? Option.isNone = none) :
    ∃ xs : List α, l = xs.map some := by
  refine ⟨l.filterMap id, ?_⟩
  rw [List.findIdx?_eq_none_iff] at h
  induction l with
  | nil => rfl
  | cons x l ih =>
    cases x with
    | none => cases h none List.mem_cons_self
    | some a => simpa using ih fun y hy => h y (List.mem_cons_of_mem _ hy)

/-- The steps offered are as many as the request says. -/
theorem readSteps_length {f : List Byte} {n : Nat} {id : PhraseId} {steps : List Step}
    (h : readSteps f n id = steps.map some) :
    steps.length = n := by
  have := congrArg List.length h
  simpa [readSteps] using this.symm

/-! ### The pages of the store, one slot apart (R54) -/

/-- The pages that the slots other than this one hold. -/
def PhraseStore.otherPages (ps : PhraseStore) (id : PhraseId) : List PageId :=
  (ps.slots.toList.eraseIdx id.val).flatMap (·.pages)

/-- The pages held are this slot's and those of the others. -/
theorem PhraseStore.pages_perm (ps : PhraseStore) (id : PhraseId) :
    (ps.slots.toList.flatMap (·.pages)).Perm (ps.slots[id].pages ++ ps.otherPages id) := by
  have h : id.val < ps.slots.toList.length := by simp
  have k := (List.getElem_cons_eraseIdx_perm h).symm.flatMap_right (·.pages)
  simpa [PhraseStore.otherPages] using k

theorem PhraseStore.otherPages_set {ps ps' : PhraseStore} {id : PhraseId} {p : PhraseSlot}
    (h : ps'.slots = ps.slots.set id p) : ps'.otherPages id = ps.otherPages id := by
  simp [PhraseStore.otherPages, h, Vector.toList_set, List.eraseIdx_set_eq]

theorem PhraseStore.mem_otherPages {ps : PhraseStore} {id j : PhraseId} (h : j ≠ id) {g : PageId}
    (hg : g ∈ ps.slots[j].pages) : g ∈ ps.otherPages id := by
  refine List.mem_flatMap.mpr ⟨ps.slots[j], List.mem_eraseIdx_iff_getElem.mpr ⟨j.val, by simp, ?_, by simp⟩, hg⟩
  exact fun e => h (Fin.ext e)

theorem PhraseStore.slots_set {ps ps' : PhraseStore} {id : PhraseId} {p : PhraseSlot} (h : ps'.slots = ps.slots.set id p)
    (j : PhraseId) : ps'.slots[j] = if id = j then p else ps.slots[j] := by
  rw [h]
  exact ps.putSlot_slots id j p

theorem PhraseStore.slot_mem (ps : PhraseStore) (id : PhraseId) : ps.slots[id] ∈ ps.slots.toList := by simp

/-- The free pages, this slot's pages and those of the others are all pages, each once. -/
theorem PhraseStore.Ok.perm {ps : PhraseStore} (h : ps.Ok) (id : PhraseId) :
    (ps.freePages ++ ps.slots[id].pages ++ ps.otherPages id).Perm allPages := by
  rw [List.append_assoc]
  exact ((ps.pages_perm id).symm.append_left _).trans h.1

theorem PhraseStore.Ok.slot {ps : PhraseStore} (h : ps.Ok) (id : PhraseId) : ps.slots[id].Ok :=
  h.2.1 _ (ps.slot_mem id)

theorem PhraseStore.Ok.building {ps : PhraseStore} (h : ps.Ok) (id : PhraseId) :
    ps.slots[id].state = .building ↔ ps.build = some id :=
  h.2.2 id

/-- A sound slot written in the place of another keeps the store sound where the free pages and the slot's pages are
together what they were, and the build context names this slot exactly when it is BUILDING and any other as before. -/
theorem PhraseStore.Ok.write {ps ps' : PhraseStore} (h : ps.Ok) (id : PhraseId) {p : PhraseSlot}
    (hs : ps'.slots = ps.slots.set id p) (hp : p.Ok)
    (pages : (ps'.freePages ++ p.pages).Perm (ps.freePages ++ ps.slots[id].pages))
    (here : p.state = .building ↔ ps'.build = some id)
    (there : ∀ j, id ≠ j → (ps'.build = some j ↔ ps.build = some j)) : ps'.Ok := by
  have slot : ps'.slots[id] = p := by rw [slots_set hs, if_pos rfl]
  refine ⟨?_, fun q hq => ?_, fun j => ?_⟩
  · have split : (ps'.slots.toList.flatMap (·.pages)).Perm (p.pages ++ ps.otherPages id) := by
      simpa only [slot, otherPages_set hs] using ps'.pages_perm id
    refine (split.append_left _).trans ?_
    rw [← List.append_assoc]
    exact (pages.append_right _).trans (h.perm id)
  · obtain ⟨j, hj, rfl⟩ := List.getElem_of_mem hq
    have e := slots_set hs ⟨j, by simpa using hj⟩
    simp only [Fin.getElem_fin] at e
    rw [Vector.getElem_toList, e]
    split
    · exact hp
    · exact h.slot ⟨j, by simpa using hj⟩
  · rw [slots_set hs]
    split
    · rename_i e; subst e; exact here
    · rename_i e; exact (h.building j).trans (there j e).symm

/-- A slot of another reference count is as sound. -/
theorem PhraseStore.Ok.putRefs {ps : PhraseStore} (h : ps.Ok) (id : PhraseId) (n : Nat) :
    (ps.putSlot id { ps.slots[id] with refs := n }).Ok :=
  h.write id rfl (h.slot id) (.refl _) (h.building id) fun _ _ => .rfl

/-! ### The requests keep the pages (R57 to R61) -/

theorem PhraseSlot.Ok.pages_of_empty {p : PhraseSlot} (h : p.Ok) (he : p.state = .empty) : p.pages = [] := by
  obtain ⟨empty, -, pages, -⟩ := h
  rw [(empty he).2] at pages
  exact List.eq_nil_of_length_eq_zero pages

theorem pagesFor_zero : pagesFor 0 = 0 := by decide

theorem PhraseStore.Ok.begun {ps : PhraseStore} (h : ps.Ok) {id : PhraseId} (he : ps.slots[id].state = .empty)
    (hb : ps.build = none) (header : Header) : (ps.begun id header).Ok := by
  have sound : (PhraseSlot.begun header).Ok :=
    ⟨fun e => (by cases e), fun _ => rfl, pagesFor_zero.symm, Nat.zero_le _⟩
  refine h.write id rfl sound ?_ ⟨fun _ => rfl, fun _ => rfl⟩ fun j hj => ?_
  · rw [(h.slot id).pages_of_empty he]
    exact .refl _
  · simp [PhraseStore.begun, hb, hj]

theorem pagesFor_mono {m n : Nat} (h : m ≤ n) : pagesFor m ≤ pagesFor n :=
  Nat.div_le_div_right (Nat.add_le_add_right h _)

theorem PhraseStore.Ok.addSteps {ps : PhraseStore} (h : ps.Ok) {id : PhraseId} (hb : ps.build = some id)
    {steps : List Step} (hl : ps.slots[id].stepCount + steps.length ≤ 256)
    (hf : ps.slots[id].need steps.length ≤ ps.freePages.length) : (ps.addSteps id steps).Ok := by
  obtain ⟨empty, header, pages, -⟩ := h.slot id
  have building := (h.building id).mpr hb
  refine h.write id rfl ⟨fun e => ?_, header, ?_, hl⟩ ?_ (h.building id) fun _ _ => .rfl
  · have := building.symm.trans e
    cases this
  · have mono := pagesFor_mono (Nat.le_add_right ps.slots[id].stepCount steps.length)
    unfold PhraseSlot.need at hf
    simp only [List.length_append, List.length_take]
    omega
  · have taken := List.take_append_drop (ps.slots[id].need steps.length) ps.freePages
    calc ps.freePages.drop (ps.slots[id].need steps.length) ++
          (ps.slots[id].pages ++ ps.freePages.take (ps.slots[id].need steps.length))
        |>.Perm (ps.slots[id].pages ++ ps.freePages.take (ps.slots[id].need steps.length) ++
          ps.freePages.drop (ps.slots[id].need steps.length)) := List.perm_append_comm
      _ = ps.slots[id].pages ++ ps.freePages := by rw [List.append_assoc, taken]
      _ |>.Perm (ps.freePages ++ ps.slots[id].pages) := List.perm_append_comm

theorem PhraseStore.Ok.ended {ps : PhraseStore} (h : ps.Ok) {id : PhraseId} (hb : ps.build = some id) :
    (ps.ended id).Ok := by
  obtain ⟨-, header, pages, count⟩ := h.slot id
  have building := (h.building id).mpr hb
  refine h.write id rfl ⟨fun e => (by cases e), fun _ => header (by rw [building]; decide), pages, count⟩ (.refl _)
    ⟨fun e => (by cases e), fun e => (by cases e)⟩ fun j hj => ?_
  simp [PhraseStore.ended, hb, hj]

theorem PhraseStore.Ok.drop {ps : PhraseStore} (h : ps.Ok) (id : PhraseId) : (ps.drop id).Ok := by
  refine h.write id rfl PhraseSlot.empty_ok ?_ ⟨fun e => (by cases e), fun e => ?_⟩ fun j hj => ?_
  · rw [show PhraseSlot.empty.pages = [] from rfl, List.append_nil]
    exact .refl _
  · simp only [PhraseStore.drop] at e
    split at e
    · cases e
    · rename_i k; exact absurd e k
  · simp only [PhraseStore.drop]
    split
    · rename_i e; simp [e, hj]
    · exact .rfl

/-! ### A pin or SOFT reset (R68) -/

theorem PhraseStore.afterPin_slot (ps : PhraseStore) (id : PhraseId) : ps.afterPin.slots[id] = ps.slots[id].afterPin := by
  simp [PhraseStore.afterPin]

theorem PhraseSlot.afterPin_ready {p : PhraseSlot} (h : p.state = .ready) : p.afterPin = { p with refs := 0 } :=
  if_pos h

theorem PhraseSlot.afterPin_other {p : PhraseSlot} (h : p.state ≠ .ready) : p.afterPin = PhraseSlot.empty :=
  if_neg h

theorem PhraseSlot.Ok.afterPin {p : PhraseSlot} (h : p.Ok) : p.afterPin.Ok := by
  by_cases hr : p.state = .ready
  · rw [PhraseSlot.afterPin_ready hr]; exact h
  · rw [PhraseSlot.afterPin_other hr]; exact PhraseSlot.empty_ok

/-- A slot holds after the reset its pages or none. -/
theorem PhraseSlot.afterPin_pages (p : PhraseSlot) : p.afterPin.pages = p.pages ∨ p.afterPin.pages = [] := by
  by_cases hr : p.state = .ready
  · rw [PhraseSlot.afterPin_ready hr]; exact .inl rfl
  · rw [PhraseSlot.afterPin_other hr]; exact .inr rfl

theorem PhraseStore.afterPin_slots (ps : PhraseStore) :
    ps.afterPin.slots.toList = ps.slots.toList.map PhraseSlot.afterPin :=
  Vector.toList_map

/-- A page is free after the reset where no slot then holds it. -/
theorem PhraseStore.afterPin_free_iff (ps : PhraseStore) (g : PageId) :
    (!(ps.afterPin.slots.toList.any fun p => p.pages.contains g)) = true ↔
      ∀ p ∈ ps.afterPin.slots.toList, g ∉ p.pages := by
  rw [Bool.not_eq_true', List.any_eq_false]
  simp

theorem PhraseStore.mem_afterPin_freePages (ps : PhraseStore) (g : PageId) :
    g ∈ ps.afterPin.freePages ↔ ∀ p ∈ ps.afterPin.slots.toList, g ∉ p.pages :=
  List.mem_filter.trans ((and_iff_right (List.mem_finRange g)).trans (ps.afterPin_free_iff g))

/-- Slots that share no page and name none twice still do so after the reset. -/
theorem afterPin_pages_nodup {l : List PhraseSlot} (h : (l.flatMap (·.pages)).Nodup) :
    ((l.map PhraseSlot.afterPin).flatMap (·.pages)).Nodup := by
  refine List.Sublist.nodup ?_ h
  clear h
  induction l with
  | nil => exact .refl _
  | cons p l ih =>
    simp only [List.map_cons, List.flatMap_cons]
    refine List.Sublist.append ?_ ih
    rcases p.afterPin_pages with e | e <;> rw [e]
    exact List.nil_sublist _

theorem PhraseStore.Ok.afterPin {ps : PhraseStore} (h : ps.Ok) : ps.afterPin.Ok := by
  refine ⟨?_, fun p hp => ?_, fun id => ?_⟩
  · have held : (ps.afterPin.slots.toList.flatMap (·.pages)).Nodup := by
      have all : (ps.freePages ++ ps.slots.toList.flatMap (·.pages)).Nodup := h.1.symm.nodup (List.nodup_finRange 64)
      rw [ps.afterPin_slots]
      exact afterPin_pages_nodup (List.nodup_append.mp all).2.1
    have free : ∀ g, g ∈ ps.afterPin.freePages ↔ g ∉ ps.afterPin.slots.toList.flatMap (·.pages) := by
      intro g
      simp [ps.mem_afterPin_freePages, List.mem_flatMap]
    have free_nodup : ps.afterPin.freePages.Nodup := List.Nodup.filter _ (List.nodup_finRange 64)
    refine (List.perm_ext_iff_of_nodup ?_ (List.nodup_finRange 64)).mpr fun g => ?_
    · exact List.nodup_append.mpr ⟨free_nodup, held, fun a ha b hb e => (free a).mp ha (e ▸ hb)⟩
    · simp only [List.mem_append, free, List.mem_finRange, iff_true]
      exact (em _).symm
  · obtain ⟨q, hq, rfl⟩ : ∃ q ∈ ps.slots.toList, q.afterPin = p := by simpa [PhraseStore.afterPin] using hp
    exact (h.2.1 q hq).afterPin
  · rw [PhraseStore.afterPin_slot]
    refine ⟨fun e => ?_, fun e => by cases e⟩
    by_cases hr : ps.slots[id].state = .ready
    · rw [PhraseSlot.afterPin_ready hr] at e
      have := hr.symm.trans e
      cases this
    · rw [PhraseSlot.afterPin_other hr] at e
      cases e

/-! ### Every step (O56) -/

theorem duckStep_store (s : State) : s.duckStep.store = s.store := by
  unfold State.duckStep
  split <;> rfl

section
variable (f : List Byte) (s : State)

theorem ownAck_store : (ownAck f s).1.store = s.store := by
  unfold ownAck
  dsimp only
  split
  · rfl
  · split <;> rfl

theorem ownMapWrite_store : (ownMapWrite f s).1.store = s.store := by
  unfold ownMapWrite
  dsimp only
  split
  · rfl
  · split <;> rfl

theorem ownMapRestore_store : (ownMapRestore f s).1.store = s.store := by
  unfold ownMapRestore
  rfl

theorem ownOutputSet_store : (ownOutputSet f s).1.store = s.store := by
  unfold ownOutputSet
  dsimp only
  split
  · exact duckStep_store s
  · rfl

theorem ownOpen_store : (ownOpen f s).1.store = s.store := by
  unfold ownOpen
  dsimp only
  split
  · rfl
  · split <;> rfl

end

section
variable {s : State} (h : s.store.Ok) (f : List Byte)
include h

theorem ownBegin_ok : (ownBegin f s).1.store.Ok := by
  by_cases he : (s.phrase (phraseOf (u8 f 0))).state = .empty
  · by_cases hb : s.store.build = none
    · rw [ownBegin_accepted he hb]; exact h.begun he hb _
    · rw [ownBegin_busy he hb]; exact h
  · rw [ownBegin_exists he]; exact h

theorem ownAdd_ok : (ownAdd f s).1.store.Ok := by
  cases hb : s.store.build with
  | none => rw [ownAdd_idle hb]; exact h
  | some id =>
    by_cases hl : 256 < (s.phrase id).stepCount + (u8 f 0).toNat
    · rw [ownAdd_tooLong hb hl]; exact h
    have hl := Nat.not_lt.mp hl
    by_cases hp : s.store.freePages.length < (s.phrase id).need (u8 f 0).toNat
    · rw [ownAdd_noSpace hb hl hp]; exact h
    have hp := Nat.not_lt.mp hp
    cases hk : (readSteps f (u8 f 0).toNat id).findIdx? Option.isNone with
    | some k => rw [ownAdd_badStep hb hl hp hk]; exact h
    | none =>
      obtain ⟨steps, hs⟩ := eq_map_some hk
      have count := readSteps_length hs
      rw [ownAdd_accepted hb hl hp hs]
      exact h.addSteps hb (by rw [count]; exact hl) (by rw [count]; exact hp)

theorem ownEnd_ok : (ownEnd f s).1.store.Ok := by
  cases hb : s.store.build with
  | none => rw [ownEnd_idle hb]; exact h
  | some id =>
    by_cases ht : s.store.timedCount (s.phrase id) = 0
    · rw [ownEnd_untimed hb ht]; exact h
    · rw [ownEnd_accepted hb ht]; exact h.ended hb

theorem ownDrop_ok : (ownDrop f s).1.store.Ok := by
  by_cases he : (s.phrase (phraseOf (u8 f 0))).state = .empty
  · rw [ownDrop_empty he]; exact h
  by_cases hr : (s.phrase (phraseOf (u8 f 0))).refs = 0
  · rw [ownDrop_accepted he hr]; exact h.drop _
  · rw [ownDrop_inUse he (Nat.pos_of_ne_zero hr)]; exact h

end

/-- Each update of a command keeps the store sound: most leave it alone, reference counts count for nothing in it, and the
requests and resets of the phrase store keep it by the lemmas above. -/
theorem kept_pages : Kept fun s => s.store.Ok where
  offer _ _ h := h
  sched _ _ h := h
  passes _ _ h := h
  putVoice s v r h := by rw [State.putVoice_store]; exact h
  refUp s p h := h.putRefs p ((s.phrase p).refs + 1)
  refDown s p h := h.putRefs p ((s.phrase p).refs - 1)
  stream _ _ _ _ h := h
  useHead _ _ _ _ _ _ _ h := h
  closeStream s i h := by rw [State.closeStream_store]; exact h
  triggers _ _ h := h
  chooseFrame s h := by rw [State.chooseFrame_store]; exact h
  replyLeft _ h := h
  reportSent s h := by rw [State.reportSent_store]; exact h
  hold _ _ h := h
  countDiscard _ h := h
  gapZero _ h := h
  heard _ h := h
  overrun _ h := h
  again _ _ _ _ _ _ _ h := h
  reply _ _ _ _ _ _ h := h
  stalled _ h := h
  goBack _ _ h := h
  internalEdge _ _ h := h
  syncEdge _ _ h := h
  move _ h := h
  loss _ _ h := h
  duckMove _ h := h
  output _ _ h := h
  clockVoices _ h := h
  advanced _ _ h := h
  powerOn _ _ := PhraseStore.afterPowerOn_ok
  resetKept _ _ _ h := h.afterPin
  softAtReplyEnd _ h := h.afterPin
  sampleStraps _ _ h := h
  takeReset _ h := h
  pending _ _ h := h
  linkOpen _ _ _ h := h
  select _ _ h := h
  ack f s h := by rw [ownAck_store]; exact h
  begin f _ h := ownBegin_ok h f
  add f _ h := ownAdd_ok h f
  finish f _ h := ownEnd_ok h f
  drop f _ h := ownDrop_ok h f
  mapWrite f s h := by rw [ownMapWrite_store]; exact h
  mapRestore f s h := by rw [ownMapRestore_store]; exact h
  outputSet f s _ h := by rw [ownOutputSet_store]; exact h
  timeSet _ _ _ _ h := h
  barRestart _ h := h
  open_ f s _ h := by rw [ownOpen_store]; exact h
  stock _ _ _ _ _ _ _ _ _ _ h := h

/-- Settles O56: every update keeps the pages, so every step does. -/
theorem stepsKeepPages : Obligations.StepsKeepPages :=
  fun s t h e => kept_pages.step s t e h

end Sys2Proof.Machine
end

section
/-! What PHRASE.BEGIN, PHRASE.END and PHRASE.DROP answer and leave (R57, R60, R61). -/

namespace Sys2Proof.Machine

/-- A command that carries a request which passes the common checks and takes no event first: its owner acts at the part as
it stands. -/
theorem exec_passes {c : Instr} {s : State} {r : Request} {num : Byte} {f : List Byte}
    (hq : requestOf c = some (r, num, f)) (h : s.Passes r num f) (ho : s.heard.ownerFirst r f = s.heard) :
    exec c s = .next (State.answered (r.own f s.heard).1 r num f (r.own f s.heard).2) := by
  rw [exec_request c s r num f hq, request_passes s r num f h, Request.carried, ho]

theorem exec_phraseBegin {s : State} {num : Byte} {f : List Byte} (h : s.Passes .phraseBegin num f) :
    exec (.phraseBegin num f) s =
      .next (State.answered (ownBegin f s.heard).1 .phraseBegin num f (ownBegin f s.heard).2) :=
  exec_passes rfl h rfl

theorem exec_phraseEnd {s : State} {num : Byte} {f : List Byte} (h : s.Passes .phraseEnd num f) :
    exec (.phraseEnd num f) s = .next (State.answered (ownEnd f s.heard).1 .phraseEnd num f (ownEnd f s.heard).2) :=
  exec_passes rfl h rfl

theorem exec_phraseDrop {s : State} {num : Byte} {f : List Byte} (h : s.Passes .phraseDrop num f) :
    exec (.phraseDrop num f) s = .next (State.answered (ownDrop f s.heard).1 .phraseDrop num f (ownDrop f s.heard).2) :=
  exec_passes rfl h rfl

theorem readHeader_eq (f : List Byte) :
    readHeader f =
      { shape :=
          if u8 f 1 = 0 then .square else if u8 f 1 = 1 then .pulse25 else if u8 f 1 = 2 then .pulse12 else .noise
        rates := { attack := (u8 f 2).toNat, release := (u8 f 3).toNat }
        tempoRelative := u8 f 4 = 1 } := by
  rw [readHeader, Shape.ofCode_eq]
  rfl

/-- NOTE and REST are the timed kinds (R52). -/
theorem Step.timed_iff (x : Option Step) :
    x.any Step.timed = true ↔ (∃ n d v g, x = some (.note n d v g)) ∨ ∃ d, x = some (.rest d) := by
  cases x with
  | none => simp
  | some st => cases st <;> simp [Step.timed]

/-- A phrase counts no timed step exactly when it holds none (R62). -/
theorem PhraseStore.timedCount_eq_zero (ps : PhraseStore) (p : PhraseSlot) :
    ps.timedCount p = 0 ↔
      ∀ i, i < p.stepCount →
        ¬((∃ n d v g, ps.stepAt p i = some (.note n d v g)) ∨ ∃ d, ps.stepAt p i = some (.rest d)) := by
  simp only [PhraseStore.timedCount, List.countP_eq_zero, List.mem_range, Step.timed_iff]

/-- Settles O34: each outcome of the three owners in turn. -/
theorem phrasesAreBuiltAndDropped : Obligations.PhrasesAreBuiltAndDropped := by
  refine ⟨fun s num f h => ⟨fun he => ?_, fun he hb => ?_, fun he hb => ?_⟩,
    fun s num f h => ⟨fun hb => ?_, fun id hb => ⟨fun ht => ?_, fun ht => ?_⟩⟩,
    fun s num f h => ⟨fun he => ?_, fun he hr => ?_, fun he hr => ?_⟩⟩
  · rw [exec_phraseBegin h, ownBegin_exists (s := s.heard) he]
    rfl
  · rw [exec_phraseBegin h, ownBegin_busy (s := s.heard) he hb]
    rfl
  · rw [exec_phraseBegin h, ownBegin_accepted (s := s.heard) he hb, readHeader_eq]
    rfl
  · rw [exec_phraseEnd h, ownEnd_idle (s := s.heard) hb]
    rfl
  · rw [exec_phraseEnd h, ownEnd_untimed (s := s.heard) hb ((s.store.timedCount_eq_zero _).mpr ht)]
    rfl
  · have some_timed : s.store.timedCount (s.phrase id) ≠ 0 := by
      obtain ⟨i, hi, k⟩ := ht
      exact fun z => (s.store.timedCount_eq_zero _).mp z i hi k
    rw [exec_phraseEnd h, ownEnd_accepted (s := s.heard) hb some_timed]
    rfl
  · rw [exec_phraseDrop h, ownDrop_empty (s := s.heard) he]
    rfl
  · rw [exec_phraseDrop h, ownDrop_inUse (s := s.heard) he hr]
    rfl
  · rw [exec_phraseDrop h, ownDrop_accepted (s := s.heard) he hr, List.length_append]
    rfl

end Sys2Proof.Machine
end

section
/-! What PHRASE.ADD stores (R53, R59) and reads (R52). -/

namespace Sys2Proof.Machine

/-! ### Cells of the pool (R53) -/

/-- What a cell of a page holds. -/
def cellOf (pool : Vector Page 64) (g : PageId) (c : Nat) : Option Step :=
  (pool[g][c]?).getD none

/-- Where step i of a page list is held: cell i mod 16 of entry i div 16. -/
def cellAddress (pages : List PageId) (i : Nat) : Option (PageId × Nat) :=
  pages[i / 16]?.map fun g => (g, i % 16)

theorem PhraseStore.stepAt_eq (ps : PhraseStore) (p : PhraseSlot) (i : Nat) :
    ps.stepAt p i = (cellAddress p.pages i).bind fun a => cellOf ps.pool a.1 a.2 := by
  simp only [PhraseStore.stepAt, cellAddress, Config.pageCells, cellOf]
  cases p.pages[i / 16]? <;> rfl

/-- A stored step is in its cell, and every other cell is as it was. -/
theorem cellOf_storeStep (pool : Vector Page 64) (pages : List PageId) (i : Nat) (st : Step) (g : PageId) (c : Nat) :
    cellOf (storeStep pool pages i st) g c =
      if cellAddress pages i = some (g, c) then some st else cellOf pool g c := by
  unfold storeStep
  split
  · rename_i g' e
    have hi : i % 16 < 16 := Nat.mod_lt i (by decide)
    have address : cellAddress pages i = some (g', i % 16) := Option.map_eq_some_iff.mpr ⟨g', e, rfl⟩
    by_cases hg : g' = g
    · subst hg
      by_cases hc : i % 16 = c
      · subst hc
        simp [cellOf, address, Config.pageCells, hi]
      · simp [cellOf, address, Config.pageCells, hc]
    · have hv : g'.val ≠ g.val := fun e => hg (Fin.ext e)
      simp [cellOf, address, Config.pageCells, hg, hv]
  · rename_i e
    have address : cellAddress pages i = none := Option.map_eq_none_iff.mpr e
    rw [address, if_neg (by simp)]

/-- Steps stored from index i on leave a cell alone that none of them is stored in. -/
theorem cellOf_storeSteps_other (pages : List PageId) (g : PageId) (c : Nat) (steps : List Step)
    (pool : Vector Page 64) (i : Nat) (h : ∀ k, k < steps.length → cellAddress pages (i + k) ≠ some (g, c)) :
    cellOf (storeSteps pool pages i steps) g c = cellOf pool g c := by
  induction steps generalizing pool i with
  | nil => rfl
  | cons st rest ih =>
    have first : cellAddress pages i ≠ some (g, c) := h 0 (Nat.zero_lt_succ _)
    rw [storeSteps, ih, cellOf_storeStep, if_neg first]
    intro k hk
    rw [Nat.add_assoc, Nat.add_comm 1 k]
    exact h (k + 1) (Nat.succ_lt_succ hk)

/-- In a list of pages without repetition no two steps share a cell. -/
theorem cellAddress_inj {pages : List PageId} (hn : pages.Nodup) {i j : Nat} (hi : i / 16 < pages.length)
    (h : cellAddress pages j = cellAddress pages i) : j = i := by
  simp only [cellAddress, List.getElem?_eq_getElem hi, Option.map_some, Option.map_eq_some_iff, Prod.mk.injEq] at h
  obtain ⟨g, hg, rfl, hc⟩ := h
  have : i / 16 = j / 16 := (List.getElem?_inj hi hn).mp ((List.getElem?_eq_getElem hi).trans hg.symm)
  omega

/-- Steps stored from index i on are found there. -/
theorem cellOf_storeSteps (pages : List PageId) (hn : pages.Nodup) (steps : List Step) (pool : Vector Page 64)
    (i k : Nat) (hk : k < steps.length) {a : PageId × Nat} (ha : cellAddress pages (i + k) = some a) :
    cellOf (storeSteps pool pages i steps) a.1 a.2 = steps[k]? := by
  induction steps generalizing pool i k with
  | nil => cases hk
  | cons st rest ih =>
    cases k with
    | zero =>
      have here : cellAddress pages i = some (a.1, a.2) := ha
      have page : i / 16 < pages.length := by
        by_contra hl
        simp [cellAddress, List.getElem?_eq_none (Nat.not_lt.mp hl)] at here
      rw [storeSteps, cellOf_storeSteps_other, cellOf_storeStep, if_pos here]
      · rfl
      · intro k _ e
        have := cellAddress_inj hn page (e.trans here.symm)
        omega
    | succ k =>
      rw [storeSteps, ih _ _ _ (Nat.lt_of_succ_lt_succ hk) (by rwa [Nat.add_assoc, Nat.add_comm 1 k])]
      rfl

/-! ### An accepted PHRASE.ADD (R59) -/

theorem cellAddress_eq_some {pages : List PageId} {i : Nat} (h : i / 16 < pages.length) :
    cellAddress pages i = some (pages[i / 16], i % 16) := by
  simp [cellAddress, h]

theorem cellAddress_append {pages : List PageId} (more : List PageId) {i : Nat} (h : i / 16 < pages.length) :
    cellAddress (pages ++ more) i = cellAddress pages i := by
  rw [cellAddress, cellAddress, List.getElem?_append_left h]

/-- The page list of the building phrase after n further steps: the pages it needs are taken from the head of the free
list. -/
def PhraseStore.grown (ps : PhraseStore) (id : PhraseId) (n : Nat) : List PageId :=
  ps.slots[id].pages ++ ps.freePages.take (ps.slots[id].need n)

theorem PhraseStore.addSteps_slot (ps : PhraseStore) (id : PhraseId) (steps : List Step) :
    (ps.addSteps id steps).slots[id] =
      { ps.slots[id] with
        stepCount := ps.slots[id].stepCount + steps.length
        pages := ps.grown id steps.length } :=
  (PhraseStore.slots_set (ps := ps) (ps' := ps.addSteps id steps) rfl id).trans (if_pos rfl)

theorem PhraseStore.addSteps_slot_other (ps : PhraseStore) {id j : PhraseId} (hj : j ≠ id) (steps : List Step) :
    (ps.addSteps id steps).slots[j] = ps.slots[j] :=
  (PhraseStore.slots_set (ps := ps) (ps' := ps.addSteps id steps) rfl j).trans (if_neg hj.symm)

theorem PhraseStore.addSteps_pool (ps : PhraseStore) (id : PhraseId) (steps : List Step) :
    (ps.addSteps id steps).pool = storeSteps ps.pool (ps.grown id steps.length) ps.slots[id].stepCount steps := rfl

theorem PhraseStore.addSteps_freePages (ps : PhraseStore) (id : PhraseId) (steps : List Step) :
    (ps.addSteps id steps).freePages = ps.freePages.drop (ps.slots[id].need steps.length) := rfl

section
variable {ps : PhraseStore} (h : ps.Ok) (id : PhraseId) (n : Nat)
include h

/-- The grown page list shares no page with another phrase, and names none twice (R54). -/
theorem PhraseStore.Ok.grown_nodup : (ps.grown id n ++ ps.otherPages id).Nodup := by
  have all : (ps.freePages ++ ps.slots[id].pages ++ ps.otherPages id).Nodup :=
    (h.perm id).symm.nodup (List.nodup_finRange 64)
  refine List.Nodup.sublist ?_ (List.Perm.nodup (List.perm_append_comm.append_right _) all)
  exact ((List.Sublist.refl _).append (List.take_sublist _ _)).append (.refl _)

theorem PhraseStore.Ok.length_grown (hf : ps.slots[id].need n ≤ ps.freePages.length) :
    (ps.grown id n).length = pagesFor (ps.slots[id].stepCount + n) := by
  obtain ⟨-, -, pages, -⟩ := h.slot id
  have mono := pagesFor_mono (Nat.le_add_right ps.slots[id].stepCount n)
  unfold PhraseSlot.need at hf
  simp only [PhraseStore.grown, PhraseSlot.need, List.length_append, List.length_take]
  omega

/-- A step of the building phrase lies on its pages. -/
theorem PhraseStore.Ok.page_lt {i : Nat} (hi : i < ps.slots[id].stepCount) : i / 16 < ps.slots[id].pages.length := by
  obtain ⟨-, -, pages, -⟩ := h.slot id
  rw [pages, pagesFor, Config.pageCells]
  omega

end

section
variable {ps : PhraseStore} (h : ps.Ok) (id : PhraseId) (steps : List Step)
include h

theorem PhraseStore.Ok.stepAt_addSteps_old {i : Nat} (hi : i < ps.slots[id].stepCount) :
    (ps.addSteps id steps).stepAt (ps.addSteps id steps).slots[id] i = ps.stepAt ps.slots[id] i := by
  have page := h.page_lt id hi
  have address := cellAddress_append (ps.freePages.take (ps.slots[id].need steps.length)) page
  have grown_page : i / 16 < (ps.grown id steps.length).length :=
    page.trans_le (by simp [PhraseStore.grown])
  have distinct := (List.nodup_append.mp (h.grown_nodup id steps.length)).1
  rw [PhraseStore.stepAt_eq, PhraseStore.stepAt_eq, PhraseStore.addSteps_slot, PhraseStore.addSteps_pool]
  simp only [PhraseStore.grown, address, cellAddress_eq_some page, Option.bind_some]
  refine cellOf_storeSteps_other _ _ _ _ _ _ fun k _ e => ?_
  have := cellAddress_inj distinct grown_page (e.trans (address.trans (cellAddress_eq_some page)).symm)
  omega

theorem PhraseStore.Ok.stepAt_addSteps_new (hf : ps.slots[id].need steps.length ≤ ps.freePages.length) {k : Nat}
    (hk : k < steps.length) :
    (ps.addSteps id steps).stepAt (ps.addSteps id steps).slots[id] (ps.slots[id].stepCount + k) = steps[k]? := by
  have page : (ps.slots[id].stepCount + k) / 16 < (ps.grown id steps.length).length := by
    rw [h.length_grown id _ hf, pagesFor, Config.pageCells]
    omega
  have distinct := (List.nodup_append.mp (h.grown_nodup id steps.length)).1
  have address := cellAddress_eq_some page
  rw [PhraseStore.stepAt_eq, PhraseStore.addSteps_slot, PhraseStore.addSteps_pool]
  simp only [address, Option.bind_some]
  exact cellOf_storeSteps _ distinct _ _ _ _ hk address

theorem PhraseStore.Ok.stepAt_addSteps_other {j : PhraseId} (hj : j ≠ id) (i : Nat) :
    (ps.addSteps id steps).stepAt (ps.addSteps id steps).slots[j] i = ps.stepAt ps.slots[j] i := by
  rw [PhraseStore.stepAt_eq, PhraseStore.stepAt_eq, ps.addSteps_slot_other hj, PhraseStore.addSteps_pool]
  cases ha : cellAddress ps.slots[j].pages i with
  | none => rfl
  | some a =>
    obtain ⟨g, hg, rfl⟩ := Option.map_eq_some_iff.mp ha
    refine cellOf_storeSteps_other _ _ _ _ _ _ fun k _ e => ?_
    obtain ⟨g', hg', eq⟩ := Option.map_eq_some_iff.mp e
    obtain ⟨rfl, -⟩ := Prod.mk.injEq .. ▸ eq
    have apart := (List.nodup_append.mp (h.grown_nodup id steps.length)).2.2
    exact apart _ (List.mem_of_getElem? hg') _ (PhraseStore.mem_otherPages hj (List.mem_of_getElem? hg)) rfl

end

/-! ### Which six bytes are which step (R52, 11.6) -/

theorem within_eq (lo hi n : Nat) : within lo hi n = decide (lo ≤ n ∧ n ≤ hi) := by
  simp [within]

theorem phraseOf_ne {b : Byte} (h : b ≤ 31) (id : PhraseId) : phraseOf b ≠ id ↔ b.toNat ≠ id.val := by
  have hb : b.toNat ≤ 31 := h
  rw [ne_eq, ne_eq, Fin.ext_iff, phraseOf, Fin.val_ofNat, Nat.mod_eq_of_lt (by omega)]

/-- The six bytes of a step by their kind. -/
theorem readStep_eq (f : List Byte) (o : Nat) (self : PhraseId) :
    readStep f o self =
      if u8 f o = 0 ∧ u8 f (o + 1) ≤ 127 ∧ 1 ≤ (u16 f (o + 2)).toNat ∧ (u16 f (o + 2)).toNat ≤ 4095 ∧
          u8 f (o + 4) ≤ 15 ∧ 1 ≤ u8 f (o + 5) ∧ u8 f (o + 5) ≤ 8 then
        some (.note (noteOf (u8 f (o + 1))) (u16 f (o + 2)).toNat (u8 f (o + 4)).toNat (u8 f (o + 5)).toNat)
      else if u8 f o = 1 ∧ 1 ≤ (u16 f (o + 2)).toNat ∧ (u16 f (o + 2)).toNat ≤ 4095 then
        some (.rest (u16 f (o + 2)).toNat)
      else if u8 f o = 2 ∧ u8 f (o + 1) ≤ 31 ∧ (u8 f (o + 1)).toNat ≠ self.val then
        some (.call (phraseOf (u8 f (o + 1))))
      else if u8 f o = 3 then some (.mark (u8 f (o + 1)))
      else if u8 f o = 4 ∧ u8 f (o + 1) ≤ 3 then some (.shape (Shape.ofCode (u8 f (o + 1))))
      else none := by
  have le (b : Byte) (n : Byte) : b ≤ n ↔ b.toNat ≤ n.toNat := BitVec.le_def
  by_cases h0 : u8 f o = 0
  · simp [readStep, h0, within_eq, le, and_assoc]
  by_cases h1 : u8 f o = 1
  · simp [readStep, h1, within_eq]
  by_cases h2 : u8 f o = 2
  · have call : (u8 f (o + 1)).toNat ≤ 31 ∧ phraseOf (u8 f (o + 1)) ≠ self ↔
        u8 f (o + 1) ≤ 31 ∧ (u8 f (o + 1)).toNat ≠ self.val :=
      and_congr_right fun h => phraseOf_ne h self
    simp only [h2, reduceIte, BitVec.reduceEq, false_and, true_and]
    rw [readStep, h2]
    exact if_congr call rfl rfl
  by_cases h3 : u8 f o = 3
  · simp [readStep, h3]
  by_cases h4 : u8 f o = 4
  · simp [readStep, h4, le]
  · obtain ⟨n, hn⟩ : ∃ n, (u8 f o).toNat = n + 5 := ⟨(u8 f o).toNat - 5, by bv_omega⟩
    simp only [readStep, hn, h0, h1, h2, h3, h4, false_and, if_false]

/-! ### The request -/

theorem exec_phraseAdd {s : State} {num : Byte} {f : List Byte} (h : s.Passes .phraseAdd num f) :
    exec (.phraseAdd num f) s = .next (State.answered (ownAdd f s.heard).1 .phraseAdd num f (ownAdd f s.heard).2) :=
  exec_passes rfl h rfl

theorem readSteps_getElem? (f : List Byte) (id : PhraseId) {n k : Nat} (h : k < n) :
    (readSteps f n id)[k]? = some (readStep f (1 + 6 * k) id) := by
  simp [readSteps, h]

/-- The first bad step offered (R58). -/
theorem readSteps_first_bad {f : List Byte} {id : PhraseId} {n k : Nat} (hk : k < n)
    (bad : readStep f (1 + 6 * k) id = none) (good : ∀ j, j < k → readStep f (1 + 6 * j) id ≠ none) :
    (readSteps f n id).findIdx? Option.isNone = some k := by
  refine List.findIdx?_eq_some_iff_getElem.mpr ⟨by simpa [readSteps] using hk, by simp [readSteps, bad],
    fun j hj => ?_⟩
  simpa [readSteps, Option.isSome_iff_ne_none] using good j hj

/-- No bad step is offered. -/
theorem readSteps_good {f : List Byte} {id : PhraseId} {n : Nat}
    (good : ∀ k, k < n → readStep f (1 + 6 * k) id ≠ none) :
    ∃ steps : List Step, readSteps f n id = steps.map some := by
  refine eq_map_some (List.findIdx?_eq_none_iff.mpr fun x hx => ?_)
  obtain ⟨k, hk, rfl⟩ := List.mem_map.mp hx
  simpa [Option.isSome_iff_ne_none] using good k (List.mem_range.mp hk)

/-- Settles O35: each outcome of the owner in turn, and the cells and bytes by the lemmas above. -/
theorem phraseAddAppends : Obligations.PhraseAddAppends := by
  refine ⟨fun s num f h ok => ⟨fun hb => ?_, fun id hb => ⟨fun hl => ?_, fun hl => ⟨fun hp => ?_, fun hp =>
    ⟨fun k hk bad good => ?_, fun good => ?_⟩⟩⟩⟩, fun f o self => ?_⟩
  · rw [exec_phraseAdd h, ownAdd_idle (s := s.heard) hb]
    rfl
  · rw [exec_phraseAdd h, ownAdd_tooLong (s := s.heard) hb hl]
    rfl
  · rw [exec_phraseAdd h, ownAdd_noSpace (s := s.heard) hb hl hp]
    rfl
  · rw [exec_phraseAdd h, ownAdd_badStep (s := s.heard) hb hl hp (readSteps_first_bad hk bad good)]
    rfl
  · obtain ⟨steps, hs⟩ := readSteps_good good
    have count := readSteps_length hs
    have offered (k : Nat) (hk : k < steps.length) : steps[k]? = readStep f (1 + 6 * k) id := by
      have := readSteps_getElem? f id (count ▸ hk)
      rw [hs, List.getElem?_map, List.getElem?_eq_getElem hk] at this
      rw [List.getElem?_eq_getElem hk]
      exact Option.some.inj this
    have pages := ok.length_grown id _ hp
    refine ⟨s.store.addSteps id steps, ?_, ?_, ?_, rfl, fun i hi => ok.stepAt_addSteps_old id steps hi, fun k hk => ?_,
      fun j hj => ⟨s.store.addSteps_slot_other hj steps, ok.stepAt_addSteps_other id steps hj⟩⟩
    · rw [exec_phraseAdd h, ownAdd_accepted (s := s.heard) hb hl hp hs, PhraseStore.addSteps_slot, count,
        PhraseStore.addSteps_freePages, count, List.length_drop]
      simp only [State.heard]
      rw [pages]
      rfl
    · rw [PhraseStore.addSteps_slot, count]
      rfl
    · rw [PhraseStore.addSteps_freePages, count]
      rfl
    · exact (ok.stepAt_addSteps_new id steps (count ▸ hp) (count ▸ hk)).trans (offered k (count ▸ hk))
  · rw [readStep_eq, Shape.ofCode_eq]
    rfl

end Sys2Proof.Machine
end

section
/-! What STATUS, PHRASE.INFO, MAP.READ and CLOCK.READ give (R62, R92, R114, R191). -/

namespace Sys2Proof.Machine

/-! ### STATUS (R191) -/

/-- A STATUS of no fields passes the common checks in every session state (R165). -/
theorem status_check (session : Session) : Request.status.check session [] = none := by
  cases session <;> rfl

theorem exec_status {s : State} {num : Byte} {f : List Byte} (h : s.Passes .status num f) :
    exec (.status num f) s = .next (State.answered (ownStatus f s.heard).1 .status num f (ownStatus f s.heard).2) :=
  exec_passes rfl h rfl

theorem Voice.statusBytes_eq (r : Voice) :
    r.statusBytes =
      (match r.state with
        | .idle => (0 : Byte)
        | .active => 1
        | .ending => 2
        | .handoff => 3) ::
        be16
          (match r.current with
            | some k => k.cue.tag
            | none => 0) := by
  unfold Voice.statusBytes
  cases r.current <;> rfl

theorem streamStatusBytes_eq (t : Option OpenStream) :
    streamStatusBytes t =
      match t with
      | none => [(0 : Byte), 0]
      | some t =>
        [(match t.state with
            | .filling => 1
            | .ready => 2
            | .playing => 3
            | .starved => 4),
          t.id] := by
  cases t <;> rfl

theorem orNone_val (id : Option PhraseId) :
    orNone (id.map Fin.val) =
      match id with
      | some id => byteOf id.val
      | none => 0xFF := by
  cases id <;> rfl

/-! ### PHRASE.INFO (R62) -/

theorem exec_phraseInfo {s : State} {num : Byte} {f : List Byte} (h : s.Passes .phraseInfo num f) :
    exec (.phraseInfo num f) s = .next (State.answered (ownInfo f s.heard).1 .phraseInfo num f (ownInfo f s.heard).2) :=
  exec_passes rfl h rfl

theorem Step.any_timed (x : Option Step) :
    x.any Step.timed =
      match x with
      | some (.note _ _ _ _) => true
      | some (.rest _) => true
      | _ => false := by
  cases x with
  | none => rfl
  | some st => cases st <;> rfl

/-! ### MAP.READ (R92) -/

theorem exec_mapRead {s : State} {num : Byte} {f : List Byte} (h : s.Passes .mapRead num f) :
    exec (.mapRead num f) s = .next (State.answered (ownMapRead f s.heard).1 .mapRead num f (ownMapRead f s.heard).2) :=
  exec_passes rfl h rfl

/-- Consecutive entries of a list, read one by one. -/
theorem take_drop_eq_map_getD {α : Type} (l : List α) (d : α) {first count : Nat} (h : first + count ≤ l.length) :
    (l.drop first).take count = (List.range count).map fun k => l.getD (first + k) d := by
  refine List.ext_getElem (by simp; omega) fun k hk _ => ?_
  have hk : first + k < l.length := by simp at hk; omega
  simp [hk]

/-- MAP.READ gives the entries one by one, where the last of them is there (R92). -/
theorem ownMapRead_eq (f : List Byte) (s : State) :
    ownMapRead f s =
      (s,
        if 127 < (u8 f 0).toNat + (u8 f 1).toNat - 1 then badParam 1
        else
          answerOk
            ([u8 f 0, u8 f 1] ++
              (List.range (u8 f 1).toNat).flatMap fun k =>
                be16 (halfOf (s.pitchMap.toList.getD ((u8 f 0).toNat + k) 0)))) := by
  unfold ownMapRead
  dsimp only
  split
  · rfl
  · rename_i there
    by_cases none_asked : (u8 f 1).toNat = 0
    · simp [none_asked]
    · have fits : (u8 f 0).toNat + (u8 f 1).toNat ≤ s.pitchMap.toList.length := by simp; omega
      rw [take_drop_eq_map_getD _ 0 fits, List.flatMap_map]

/-! ### CLOCK.READ (R114, R120) -/

theorem exec_clockRead {s : State} {num : Byte} {f : List Byte} (h : s.Passes .clockRead num f) :
    exec (.clockRead num f) s =
      .next
        (State.answered s.heard.beatFirst .clockRead num f (answerOk s.heard.beatFirst.time.readResults)) :=
  (exec_request _ s .clockRead num f rfl).trans (request_passes s .clockRead num f h)

/-- The beat edge and the loss taken first, one after the other (R120). -/
theorem State.beatFirst_eq (s : State) :
    s.beatFirst =
      let s1 : State := if s.time.beatAsk = none then s else s.takeBeat.chooseFrame
      if s1.time.lossFound then s1.takeLoss.chooseFrame else s1 := by
  have edge : s.first s.time.beatAsk.isSome State.takeBeat =
      if s.time.beatAsk = none then s else s.takeBeat.chooseFrame := by
    unfold State.first
    cases s.time.beatAsk <;> rfl
  simp only [State.beatFirst, edge]
  rfl

/-- The flags of CLOCK.READ are a bit each. -/
theorem clockFlags_eq (a b c d : Bool) :
    yesNo a ||| (yesNo b <<< 1) ||| (yesNo c <<< 2) ||| (yesNo d <<< 3) =
      (if a then 1 else 0) + (if b then 2 else 0) + (if c then 4 else 0) + if d then 8 else 0 := by
  decide +revert

theorem TimeBase.readResults_eq (t : TimeBase) :
    t.readResults =
      be32 t.tick ++ [byteOf t.beatInBar] ++ be16 t.barNumber ++ be16 (halfOf t.effectiveBeat) ++
        [t.sync.code, t.source.code] ++ be16 (halfOf t.configuredBeat) ++
        [byteOf t.configuredBar,
          (if t.lengthPending then 1 else 0) + (if t.barRestart then 2 else 0) + (if t.lastBeat.isSome then 4 else 0) +
            if t.previousSync.isSome then 8 else 0] ++
        be32 (t.lastBeat.getD 0) ++ be32 (t.previousSync.getD 0) := by
  rw [TimeBase.readResults, clockFlags_eq]

/-- Settles O36: each owner answers what its blocks hold. -/
theorem readsChangeNothing : Obligations.ReadsChangeNothing := by
  refine ⟨fun s num h => ⟨h, status_check _⟩, fun s num f h => ?_, fun s num f h => ?_, fun s num f h => ?_,
    fun s num f h => ?_⟩
  · rw [exec_status h]
    simp only [ownStatus, Voice.statusBytes_eq, streamStatusBytes_eq, orNone_val]
    rfl
  · rw [exec_phraseInfo h]
    simp only [ownInfo, PhraseStore.timedCount, Step.any_timed]
    rfl
  · rw [exec_mapRead h, ownMapRead_eq]
    rfl
  · rw [exec_clockRead h, State.beatFirst_eq, TimeBase.readResults_eq]
    rfl

end Sys2Proof.Machine
end

section
/-! What each reset leaves of the phrase store, the pitch map, the mixer and the serial rate (R67, R68, R93, R103, R104,
R171). -/

namespace Sys2Proof.Machine

/-- A pin reset, and the SOFT reset by either of its commands, keep the READY phrases; REPLY_SENT leaves the straps to be
sampled (log entry 11). -/
theorem exec_resetKept {s : State} {straps : Straps} {c : Instr}
    (h : c = .pinReset straps ∨ (c = .softReset straps ∧ s.inReset = false ∧ s.link.sendingFull = true) ∨
      (c = .replySent ∧ straps = s.straps ∧ s.inReset = false ∧ s.link.sendingFull = true)) :
    ∃ cause, exec c s =
      .next
        { s.resetKept cause straps with
          link := { Link.afterReset cause straps with strapsDue := decide (c = .replySent) } } := by
  obtain rfl | ⟨rfl, hr, hf⟩ | ⟨rfl, rfl, hr, hf⟩ := h
  · exact ⟨.pin, rfl⟩
  · have run : exec (.softReset straps) s = s.act fun u => u.softReset straps := rfl
    refine ⟨.soft, ?_⟩
    rw [run, State.act, hr]
    simp only [State.softReset, hf, if_true, Bool.false_eq_true, if_false,
      (s.resetKept_restarted .soft straps).chooseFrame]
    rfl
  · have run : exec .replySent s = s.act State.replySent := rfl
    refine ⟨.soft, ?_⟩
    rw [run, State.act, hr]
    simp only [State.replySent, hf, if_true, Bool.false_eq_true, if_false, s.softAtReplyEnd_restarted.chooseFrame]
    rfl

/-- A SOFT_RESET while no FULL reply leaves TXD samples the straps where a reset has left that to it, and else does nothing
(log entry 11). -/
theorem exec_softReset_late {s : State} (straps : Straps) (hr : s.inReset = false) (hf : s.link.sendingFull = false) :
    exec (.softReset straps) s =
      .next (if s.link.strapsDue then (s.sampleStraps straps).chooseFrame else s.chooseFrame) := by
  have run : exec (.softReset straps) s = s.act fun u => u.softReset straps := rfl
  rw [run, State.act, hr]
  simp only [State.softReset, hf, Bool.false_eq_true, if_false]
  split <;> rfl

/-- The steps of a READY phrase are as they were (R68). -/
theorem PhraseStore.stepAt_afterPin (ps : PhraseStore) {id : PhraseId} (h : ps.slots[id].state = .ready) (i : Nat) :
    ps.afterPin.stepAt ps.afterPin.slots[id] i = ps.stepAt ps.slots[id] i := by
  rw [ps.afterPin_slot, PhraseSlot.afterPin_ready h]
  rfl

/-- The pages kept are those of the READY phrases. -/
theorem PhraseSlot.mem_afterPin_pages (p : PhraseSlot) (g : PageId) :
    g ∈ p.afterPin.pages ↔ p.state = .ready ∧ g ∈ p.pages := by
  by_cases h : p.state = .ready
  · simp [PhraseSlot.afterPin_ready h, h]
  · simp [PhraseSlot.afterPin_other h, h, PhraseSlot.empty]

/-- The free page list after the reset: every page of no READY phrase, in ascending order (R68). -/
theorem PhraseStore.afterPin_freePages (ps : PhraseStore) :
    ps.afterPin.freePages =
      (List.finRange 64).filter fun g =>
        decide (∀ id : PhraseId, ps.slots[id].state = .ready → g ∉ ps.slots[id].pages) := by
  have slot (id : PhraseId) : ps.afterPin.slots[id] = ps.slots[id].afterPin := ps.afterPin_slot id
  refine List.filter_congr fun g _ => ?_
  rw [Bool.eq_iff_iff, decide_eq_true_iff]
  refine (ps.afterPin_free_iff g).trans ⟨fun h id hr hg => ?_, fun h p hp hg => ?_⟩
  · refine h _ (ps.afterPin.slot_mem id) ?_
    rw [slot, PhraseSlot.mem_afterPin_pages]
    exact ⟨hr, hg⟩
  · rw [ps.afterPin_slots] at hp
    obtain ⟨q, hq, rfl⟩ := List.mem_map.mp hp
    obtain ⟨j, hj, rfl⟩ := List.getElem_of_mem hq
    obtain ⟨hr, hg⟩ := (PhraseSlot.mem_afterPin_pages _ g).mp hg
    exact h ⟨j, by simpa using hj⟩ hr hg

/-- Settles O4: the blocks read off the restarted part, and the store by R68. -/
theorem resetsKeepReadyPhrases : Obligations.ResetsKeepReadyPhrases := by
  refine ⟨fun s straps => ?_, fun s straps c h => ?_, fun s straps hr hf => ⟨fun hd => ?_, fun hd => ?_⟩⟩
  · refine ⟨s.powerOn straps, rfl, fun id => ?_, rfl, rfl, rfl, ⟨rfl, rfl, rfl, rfl, rfl, rfl, rfl, rfl, rfl⟩, rfl⟩
    simp [State.phrase, State.powerOn, State.restart, PhraseStore.afterPowerOn, PhraseSlot.empty]
  · obtain ⟨cause, run⟩ := exec_resetKept h
    refine ⟨_, run, fun id hid => ⟨?_, s.store.stepAt_afterPin hid⟩, fun id hid => ?_, s.store.afterPin_freePages,
      rfl, rfl, ⟨⟨rfl, rfl, rfl, rfl, rfl, rfl, rfl, rfl, rfl⟩, rfl⟩, rfl⟩
    · exact (s.store.afterPin_slot id).trans (PhraseSlot.afterPin_ready hid)
    · exact (s.store.afterPin_slot id).trans (PhraseSlot.afterPin_other hid)
  · rw [exec_softReset_late straps hr hf, hd]
    rfl
  · refine ⟨strapRate straps, rfl, ?_⟩
    rw [exec_softReset_late straps hr hf, hd]
    rfl

end Sys2Proof.Machine
end

section
/-! The envelope and the duck amount in playback, written out: how a timed step starts, how levels move, and what the record
of voice 6 carries with it in the mixer (R71, R76 to R79, R98, R100). -/

namespace Sys2Proof.Machine

/-! ### Timed steps start (R76, R77, R79) -/

/-- The movement toward a target ends at once where the level equals it or the rate of its direction is 0 (R71, R72). -/
theorem Envelope.approach_eq (e : Envelope) (g : Nat) (rates : Rates) :
    e.approach g rates =
      if e.level = g ∨ (if e.level < g then rates.attack else rates.release) = 0 then
        { phase := .hold, level := g, target := g, rateCount := 0 }
      else { phase := .attack, level := e.level, target := g, rateCount := 0 } := by
  by_cases h : e.level = g
  · rw [Envelope.approach_of_eq e g rates h, if_pos (.inl h)]
  · simp only [Envelope.approach, h, if_false, false_or]

/-- A NOTE starts from the level under legato and from 0 otherwise (R77). -/
theorem Envelope.startNote_eq (e : Envelope) (legato : Bool) (g : Nat) (rates : Rates) :
    e.startNote legato g rates = Envelope.approach { e with level := if legato then e.level else 0 } g rates := by
  cases legato <;> rfl

/-- A NOTE whose map entry is 0 is a REST (R76). -/
theorem State.startNote_rest {s : State} {note : Note} (hp : s.pitchMap[note] = 0) (v : VoiceId) (p : Player) (c : Cue)
    (h : Header) (d volume gate : Nat) : s.startNote v p c h note d volume gate = s.startRest v p h d :=
  if_pos hp

/-- Settles O51: a REST by its definition, and a NOTE with a period by the movement of its envelope. -/
theorem timedStepsStart : Obligations.TimedStepsStart := by
  intro s v p c h d
  refine ⟨rfl, fun note volume gate => ⟨fun hp => State.startNote_rest hp v p c h d volume gate, fun hp => ?_⟩⟩
  simp only [State.startNote, hp, if_false, Envelope.startNote_eq, Envelope.approach_eq]
  rfl

/-! ### The record of voice 6 and the duck amount (R100) -/

/-- What a written voice record carries with it in the mixer: nothing, unless it changes the duck target (R100). -/
theorem State.putVoice_eq (s : State) (v : VoiceId) (r : Voice) :
    s.putVoice v r =
      { s with
        alloc := { s.alloc with voices := s.alloc.voices.set v r }
        mixer :=
          if v ≠ 6 ∨ Machine.duckTarget s.mixer.duckDepth r = s.duckTarget then s.mixer
          else if s.mixer.duckCount = 8 then s.mixer.duckMove s.duckTarget
          else { s.mixer with duckCount := 0 } } := by
  by_cases h : v ≠ 6 ∨ Machine.duckTarget s.mixer.duckDepth r = s.duckTarget
  · rw [if_pos h, s.putVoice_plain v r fun hv => ?_]
    subst hv
    exact h.resolve_left fun n => n rfl
  · obtain ⟨rfl, changed⟩ : v = 6 ∧ Machine.duckTarget s.mixer.duckDepth r ≠ s.duckTarget := by
      simpa only [not_or, not_not] using h
    rw [if_neg h]
    refine (State.putVoice_retargets changed).trans ?_
    by_cases h8 : s.mixer.duckCount = 8
    · have due : s.mixer.duckDue = true := beq_iff_eq.mpr h8
      rw [if_pos h8, Mixer.retargeted, if_pos due]
      rfl
    · have due : ¬s.mixer.duckDue = true := fun k => h8 (beq_iff_eq.mp k)
      rw [if_neg h8, Mixer.retargeted, if_neg due]
      rfl

/-- DUCK_STEP at a duck count of 8 (R100). -/
theorem exec_duckStep {s : State} (hr : s.inReset = false) (h : s.mixer.duckCount = 8) :
    exec .duckStep s = .next (State.chooseFrame { s with mixer := s.mixer.duckMove s.duckTarget }) := by
  have due : s.mixer.duckDue = true := beq_iff_eq.mpr h
  refine (event_stands s .duck hr due).trans ?_
  rw [State.carry, State.duckStep, if_pos due]

/-! ### The rate count step (R71) -/

theorem Voice.rateDue_eq {r : Voice} {k : Current} (hk : r.current = some k) :
    r.rateDue = r.env.rateDue r.releaseMode r.rates := by
  rw [Voice.rateDue, hk]
  rfl

theorem Voice.rateStep_due {r : Voice} (h : r.rateDue = true) :
    r.rateStep = { r with env := r.env.rateStep (r.state == .ending) } :=
  if_pos h

theorem Voice.rateStep_idle {r : Voice} (h : r.rateDue = false) : r.rateStep = r := by
  rw [Voice.rateStep, h]
  rfl

theorem exec_rateCountStep {s : State} {v : VoiceId} (hr : s.inReset = false) (h : (s.voice v).rateDue = true) :
    exec (.rateCountStep v) s = .next (s.putVoice v (s.voice v).rateStep).chooseFrame :=
  event_stands s (.rate v) hr h

theorem exec_rateCountStep_idle {s : State} {v : VoiceId} (hr : s.inReset = false) (h : (s.voice v).rateDue = false) :
    exec (.rateCountStep v) s = .next s.chooseFrame :=
  event_idle s (.rate v) hr h

/-- RATE_COUNT_STEP of a voice whose count has reached the rate in force: its envelope becomes `e`. -/
theorem rateCountStep_moves {s : State} {v : VoiceId} {k : Current} {e : Envelope} (hr : s.inReset = false)
    (hk : (s.voice v).current = some k)
    (h : (s.voice v).env.rateDue (s.voice v).releaseMode (s.voice v).rates = true)
    (he : (s.voice v).env.rateStep ((s.voice v).state == .ending) = e) :
    (s.voice v).rateStep = { s.voice v with env := e } ∧
      exec (.rateCountStep v) s = .next (s.putVoice v (s.voice v).rateStep).chooseFrame := by
  have due := (Voice.rateDue_eq hk).trans h
  rw [← he]
  exact ⟨Voice.rateStep_due due, exec_rateCountStep hr due⟩

theorem Envelope.rateDue_attack {e : Envelope} (hp : e.phase = .attack) (mode : Option ReleaseMode) (rates : Rates) :
    e.rateDue mode rates = true ↔
      (e.level < e.target ∧ e.rateCount = rates.attack) ∨ (e.target < e.level ∧ e.rateCount = rates.release) := by
  simp [Envelope.rateDue, hp]

theorem Envelope.rateDue_release {e : Envelope} (hp : e.phase = .release) (mode : Option ReleaseMode) (rates : Rates) :
    e.rateDue mode rates = true ↔ mode ≠ some .fast ∧ 0 < e.level ∧ e.rateCount = rates.release := by
  simp [Envelope.rateDue, hp, and_assoc]

/-- In HOLD, in SILENT and in a FAST release no count runs (R71). -/
theorem Envelope.rateDue_uncounted {e : Envelope} {mode : Option ReleaseMode}
    (h : e.phase = .hold ∨ e.phase = .silent ∨ (e.phase = .release ∧ mode = some .fast)) (rates : Rates) :
    e.rateDue mode rates = false := by
  rcases h with h | h | ⟨h, rfl⟩
  · rw [Envelope.rateDue, h]
  · rw [Envelope.rateDue, h]
  · simp [Envelope.rateDue, h]

theorem Envelope.rateStep_attack_up {e : Envelope} (hp : e.phase = .attack) (h : e.level < e.target) (ending : Bool) :
    e.rateStep ending =
      { e with phase := if e.level + 1 = e.target then .hold else .attack, level := e.level + 1, rateCount := 0 } := by
  simp only [Envelope.rateStep, hp, h, if_true]

theorem Envelope.rateStep_attack_down {e : Envelope} (hp : e.phase = .attack) (h : e.target < e.level) (ending : Bool) :
    e.rateStep ending =
      { e with phase := if e.level - 1 = e.target then .hold else .attack, level := e.level - 1, rateCount := 0 } := by
  simp only [Envelope.rateStep, hp, h.not_gt, if_false]

theorem Envelope.rateStep_release {e : Envelope} (hp : e.phase = .release) (h : 0 < e.level) (state : VoiceState) :
    e.rateStep (state == .ending) =
      { e with
        phase := if e.level = 1 ∧ state ≠ .ending then .silent else .release, level := e.level - 1, rateCount := 0 } := by
  have last : (e.level ≤ 1 ∧ (!(state == .ending)) = true) ↔ e.level = 1 ∧ state ≠ .ending := by
    rw [Bool.not_eq_true', beq_eq_false_iff_ne]
    exact and_congr_left fun _ => ⟨fun k => by omega, fun k => by omega⟩
  simp only [Envelope.rateStep, hp, last]

/-! ### The gate (R78) -/

/-- GATE_RUNS_OUT (R78): the outstanding rate count step is taken first, in the order of R74 (log entry 19). -/
theorem exec_gateRunsOut {s : State} {v : VoiceId} {p : Player} {n : Nat} (hr : s.inReset = false)
    (ha : (s.voice v).state = .active) (hp : (s.voice v).player = some p) (hg : p.gateTicks = some 0)
    (hn : p.stepTicks = some n) (hpos : 0 < n) :
    exec (.gateRunsOut v) s =
      .next
        (s.putVoice v
          { (s.voice v).rateStep with
            player := some { p with gateTicks := none }
            env := (s.voice v).rateStep.env.release p.rates.release }).chooseFrame := by
  have stands : s.stands (.gate v) = true := by
    simp only [State.stands, Voice.gateOut, ha, hp, hg, hn, Option.any_some, hpos, decide_true]
    rfl
  refine (event_stands s (.gate v) hr stands).trans ?_
  rw [State.carry, State.gateEnd]
  simp only [Voice.rateStep_player, hp]

/-- Settles O53: the rate count step by phase, the gate, and the mixer by `State.putVoice_eq`. -/
theorem levelsMove : Obligations.LevelsMove := by
  refine ⟨fun s v k hr hk => ?_, fun s v p n hr ha hp hg hn hpos => exec_gateRunsOut hr ha hp hg hn hpos,
    fun s => ⟨exec_duckStep, s.putVoice_eq⟩⟩
  refine ⟨fun hp hl hc => ?_, fun hp hl hc => ?_, fun hp hm hl hc => ?_, fun h => ?_, fun h => ?_⟩
  · exact rateCountStep_moves hr hk ((Envelope.rateDue_attack hp _ _).mpr (.inl ⟨hl, hc⟩))
      (Envelope.rateStep_attack_up hp hl _)
  · exact rateCountStep_moves hr hk ((Envelope.rateDue_attack hp _ _).mpr (.inr ⟨hl, hc⟩))
      (Envelope.rateStep_attack_down hp hl _)
  · exact rateCountStep_moves hr hk ((Envelope.rateDue_release hp _ _).mpr ⟨hm, hl, hc⟩)
      (Envelope.rateStep_release hp hl _)
  · have idle := (Voice.rateDue_eq hk).trans (Envelope.rateDue_uncounted h _)
    exact ⟨Voice.rateStep_idle idle, exec_rateCountStep_idle hr idle⟩
  · refine Voice.rateStep_idle ((Voice.rateDue_eq hk).trans (Bool.eq_false_iff.mpr fun due => ?_))
    rcases h with ⟨hp, hl, hc⟩ | ⟨hp, hl, hc⟩ | ⟨hp, _, hc⟩
    · obtain ⟨_, count⟩ | ⟨above, _⟩ := (Envelope.rateDue_attack hp _ _).mp due
      exacts [hc count, hl.not_gt above]
    · obtain ⟨below, _⟩ | ⟨_, count⟩ := (Envelope.rateDue_attack hp _ _).mp due
      exacts [hl.not_gt below, hc count]
    · obtain ⟨_, _, count⟩ := (Envelope.rateDue_release hp _ _).mp due
      exact hc count

end Sys2Proof.Machine
end

section
/-! STEP_END and the items of a run, written out at the place of the player (R73, R78 to R86). -/

namespace Sys2Proof.Machine

/-! ### The end of a timed step (R78) -/

/-- A record that leaves the duck target as it is, and is written over, leaves no trace. -/
theorem State.putVoice_putVoice {s : State} {v : VoiceId} {r : Voice}
    (h : Machine.duckTarget s.mixer.duckDepth r = Machine.duckTarget s.mixer.duckDepth (s.voice v)) (r' : Voice) :
    (s.putVoice v r).putVoice v r' = s.putVoice v r' := by
  have target : v = 6 → State.duckTarget { s with alloc := { s.alloc with voices := s.alloc.voices.set v r } } =
      s.duckTarget := by
    rintro rfl
    simpa [State.duckTarget, State.voice, streamVoice] using h
  rw [s.putVoice_plain v r fun _ => h, State.putVoice_eq, State.putVoice_eq]
  by_cases hv : v = 6
  · simp only [target hv, Vector.set_set]
  · simp only [hv, ne_eq, not_false_eq_true, true_or, if_true, Vector.set_set]

/-- STEP_END: the outstanding rate count step is taken first, in the order of R74 (log entry 19). -/
theorem exec_stepEnd {s : State} {v : VoiceId} {p : Player} (hr : s.inReset = false) (ha : (s.voice v).state = .active)
    (hp : (s.voice v).player = some p) (ht : p.stepTicks = some 0) :
    exec (.stepEnd v) s =
      .next
        (State.run Config.runFuel v
          (s.putVoice v
            { (s.voice v).rateStep with
              player := some { p with stepTicks := none, gateTicks := none, stepVolume := none }.nextStep })).chooseFrame := by
  have stands : s.stands (.stepEnd v) = true := by
    simp only [State.stands, Voice.stepOut, ha, hp, Option.any_some, ht]
    rfl
  have target : Machine.duckTarget s.mixer.duckDepth (s.voice v).rateStep =
      Machine.duckTarget s.mixer.duckDepth (s.voice v) := by
    rw [Machine.duckTarget, Voice.rateStep_state, Voice.rateStep_current]
    rfl
  refine (event_stands s (.stepEnd v) hr stands).trans ?_
  rw [State.carry, State.stepOver, hp]
  simp only [State.endStep, State.putPlayer, State.rateStep, State.putVoice_same, State.putVoice_putVoice target]

/-! ### The place of a player (R73, R82) -/

/-- The phrase that holds the step at the player's place: the called phrase inside a CALL, else the top phrase (R82). -/
def Player.phraseAt (p : Player) (top : TopPosition) : PhraseId :=
  (p.call.map fun call => call.phrase).getD top.phrase

/-- The index of that step. -/
def Player.indexAt (p : Player) (top : TopPosition) : Nat :=
  (p.call.map fun call => call.step).getD top.step

/-- The step at the player's place, none at the end of its phrase. -/
def State.stepMet (s : State) (p : Player) (top : TopPosition) : Option Step :=
  if p.indexAt top < (s.phrase (p.phraseAt top)).stepCount then
    s.store.stepAt (s.phrase (p.phraseAt top)) (p.indexAt top)
  else none

/-- The player one step on: in the called phrase inside a CALL, else in the top phrase (R73). -/
def Player.onward (p : Player) (top : TopPosition) : Player :=
  match p.call with
  | some call => { p with call := some { call with step := call.step + 1 } }
  | none => { p with top := some { top with step := top.step + 1 } }

theorem Player.nextStep_eq {p : Player} {top : TopPosition} (ht : p.top = some top) : p.nextStep = p.onward top := by
  rw [Player.nextStep, Player.onward, ht]
  rfl

theorem Player.nextStep_shape {p : Player} {top : TopPosition} (ht : p.top = some top) (shape : Shape) :
    { p with shape := shape }.nextStep = { p.onward top with shape := shape } := by
  refine (Player.nextStep_eq (p := { p with shape := shape }) ht).trans ?_
  rw [Player.onward, Player.onward]
  cases p.call <;> rfl

theorem State.stepHeader_eq {p : Player} {top : TopPosition} (ht : p.top = some top) (s : State) (c : Cue) :
    s.stepHeader p c = (s.phrase (p.phraseAt top)).theHeader := by
  rw [State.stepHeader, Player.phraseAt, ht]
  cases p.call <;> rfl

/-! ### The items of a run (R73, R80 to R86) -/

section
variable {s : State} {v : VoiceId} {k : Current} {p : Player} {top : TopPosition}

/-- A TONE or NOISE has no step after its one note: its cue is FINISHED (R86). -/
theorem State.runOne_finished (hs : (s.voice v).state = .active) (hk : (s.voice v).current = some k)
    (hp : (s.voice v).player = some p) (hc : p.call = none) (ht : p.top = none) :
    s.runOne v = (s.enterEnding v .finished, false) := by
  simp only [State.runOne, hs, hk, hp, hc, ht]

/-- The item of a run at the player's place: a step, or the end of the called phrase or of the top phrase. -/
theorem State.runOne_eq (hs : (s.voice v).state = .active) (hk : (s.voice v).current = some k)
    (hp : (s.voice v).player = some p) (ht : p.top = some top) :
    s.runOne v =
      match s.stepMet p top, p.call with
      | some st, _ => s.carryOut v p k.cue st
      | none, some call => (s.callReturn v p call (s.voice v).env, true)
      | none, none => s.endPass v p top := by
  cases hc : p.call with
  | some call =>
    have met : s.stepMet p top =
        if call.step < (s.phrase call.phrase).stepCount then s.store.stepAt (s.phrase call.phrase) call.step else none := by
      simp only [State.stepMet, Player.indexAt, Player.phraseAt, hc, Option.map_some, Option.getD_some]
    simp only [State.runOne, hs, hk, hp, hc, ← met]
    cases s.stepMet p top <;> rfl
  | none =>
    have met : s.stepMet p top =
        if top.step < (s.phrase top.phrase).stepCount then s.store.stepAt (s.phrase top.phrase) top.step else none := by
      simp only [State.stepMet, Player.indexAt, Player.phraseAt, hc, Option.map_none, Option.getD_none]
    simp only [State.runOne, hs, hk, hp, hc, ht, ← met]
    cases s.stepMet p top <;> rfl

/-- A CALL to a READY phrase (R82). -/
theorem State.takeCall_enters (hc : p.call = none) (ht : p.top = some top) {target : PhraseId}
    (hr : (s.phrase target).state = .ready) (c : Cue) (env : Envelope) :
    s.takeCall v p c target env =
      (s.refUp target).putPlayer v
        { p with
          call := some { phrase := target, step := 0, savedShape := p.shape }
          shape := (s.phrase target).theHeader.shape }
        env := by
  have ready : s.phraseReady target = true := beq_iff_eq.mpr hr
  simp only [State.takeCall, hc, ht, ready, if_true]

/-- A CALL to a phrase that is not READY is skipped (R83). -/
theorem State.takeCall_absent (hc : p.call = none) (ht : p.top = some top) {target : PhraseId}
    (hr : (s.phrase target).state ≠ .ready) (c : Cue) (env : Envelope) :
    s.takeCall v p c target env =
      (s.offer (.phraseFault c.tag top.phrase top.step .absent)).putPlayer v (p.onward top) env := by
  have absent : ¬s.phraseReady target = true := fun h => hr (beq_iff_eq.mp h)
  simp only [State.takeCall, hc, ht, if_neg absent, Player.nextStep_eq ht]

/-- A CALL inside a call is skipped, and reported once in a pass (R84). -/
theorem State.takeCall_nested {call : CallPosition} (hc : p.call = some call) (ht : p.top = some top) (target : PhraseId)
    (c : Cue) (env : Envelope) :
    s.takeCall v p c target env =
      if top.nestedFault then s.putPlayer v (p.onward top) env
      else
        (s.offer (.phraseFault c.tag call.phrase call.step .nested)).putPlayer v
          { p.onward top with top := some { top with nestedFault := true } } env := by
  simp only [State.takeCall, hc, ht, Player.nextStep, Player.onward]

/-- The return from a CALL, to the step after it (R82). -/
theorem State.callReturn_eq (ht : p.top = some top) (call : CallPosition) (env : Envelope) :
    s.callReturn v p call env =
      (s.refDown call.phrase).putPlayer v
        { p with call := none, shape := call.savedShape, top := some { top with step := top.step + 1 } } env := by
  simp only [State.callReturn, Player.nextStep, ht, Option.map_some]

/-- A new pass of the top phrase: an endless cue has 0 repeats left again, any other one fewer (R85). -/
theorem State.endPass_again (hc : p.call = none) (h : p.repeatsLeft ≠ 1) :
    s.endPass v p top =
      (s.putPlayer v
        { p with
          top := some { top with step := 0, nestedFault := false }
          shape := (s.phrase (p.phraseAt top)).theHeader.shape
          repeatsLeft := p.repeatsLeft - 1 }
        (s.voice v).env, true) := by
  have place : p.phraseAt top = top.phrase := by rw [Player.phraseAt, hc]; rfl
  rw [place]
  obtain ⟨_, _, _, _, _, left, _, _, _, _⟩ := p
  match left, h with
  | 0, _ => rfl
  | n + 2, _ => rfl

/-- The end of the last pass: the top step index stays at the last step (log entry 29). -/
theorem State.endPass_last (ht : p.top = some top) (h : p.repeatsLeft = 1) :
    s.endPass v p top =
      ((s.putPlayer v { p with top := some { top with step := top.step - 1 } } (s.voice v).env).enterEnding v .finished,
        false) := by
  simp only [State.endPass, h, Player.lastStep, ht, Option.map_some]

end

/-- Settles O52: STEP_END, the unrolling of a run, and its items by `State.runOne_eq`. -/
theorem stepsRun : Obligations.StepsRun := by
  refine ⟨fun s v p hr ha hp ht => exec_stepEnd hr ha hp ht, fun n s v => rfl,
    fun s v k p hs hk hp hc ht => State.runOne_finished hs hk hp hc ht, fun s v k p top hs hk hp ht => ?_⟩
  have item := State.runOne_eq hs hk hp ht
  have onStep {st : Step} (h : s.stepMet p top = some st) : s.runOne v = s.carryOut v p k.cue st := by rw [item, h]
  have header : s.stepHeader p k.cue = (s.phrase (p.phraseAt top)).theHeader := State.stepHeader_eq ht s k.cue
  refine ⟨fun note d volume gate h => ?note, fun d h => ?rest, fun shape h => ?shape, fun value h => ?mark,
    fun target h => ⟨fun hc hr => ?enters, fun hc hr => ?absent, fun call hc => ?nested⟩,
    fun (h : s.stepMet p top = none) => ⟨fun call hc => ?returns, fun hc => ?pass⟩⟩
  case note => rw [onStep h, State.carryOut, header]; rfl
  case rest => rw [onStep h, State.carryOut, header]; rfl
  case shape => rw [onStep h, State.carryOut, Player.nextStep_shape ht]; rfl
  case mark => rw [onStep h, State.carryOut, Player.nextStep_eq ht]; rfl
  case enters => rw [onStep h, State.carryOut, State.takeCall_enters hc ht hr]; rfl
  case absent => rw [onStep h, State.carryOut, State.takeCall_absent hc ht hr]; rfl
  case nested =>
    rw [onStep h, State.carryOut, State.takeCall_nested hc ht]
    by_cases hn : top.nestedFault = true
    · rw [if_pos hn, if_pos hn]; rfl
    · rw [if_neg hn, if_neg hn]; rfl
  case returns =>
    rw [item, h, hc]
    simp only [State.callReturn_eq ht]
    rfl
  case pass =>
    have passes : s.runOne v = s.endPass v p top := by rw [item, h, hc]
    refine ⟨fun h0 => ?_, fun h1 => ?_, fun h2 => ?_⟩
    · rw [passes, State.endPass_again hc (by omega), h0]
      rfl
    · rw [passes, State.endPass_last ht h1]
      rfl
    · rw [passes, State.endPass_again hc (by omega)]
      rfl

end Sys2Proof.Machine
end

section
/-! The ranges of the pitch map, the time base, the mixer and the link (R89, R99 to R101, R107, R160, R162, R163): each update
keeps those of the block it writes, so every step keeps them all. -/

namespace Sys2Proof.Machine

/-! ### What the common checks say of the fields (R188) -/

theorem Request.tests_of_check {r : Request} {session : Session} {f : List Byte} (h : r.check session f = none) :
    ∀ t ∈ r.tests f, t.2 = true := by
  unfold Request.check at h
  split at h
  · cases h
  split at h
  · cases h
  · rename_i good
    simpa [firstBad] using good

theorem outputSet_in_range {session : Session} {f : List Byte} (h : Request.outputSet.check session f = none) :
    (flag f 0 0 = true → (u8 f 1).toNat ≤ 31) ∧ (flag f 0 1 = true → (u8 f 2).toNat ≤ 15) := by
  have volume := Request.tests_of_check h (2, !flag f 0 0 || (u8 f 1).toNat ≤ 31) (by simp [Request.tests])
  have depth := Request.tests_of_check h (3, !flag f 0 1 || (u8 f 2).toNat ≤ 15) (by simp [Request.tests])
  exact ⟨fun present => by simpa [present] using volume, fun present => by simpa [present] using depth⟩

theorem clockSet_in_range {session : Session} {f : List Byte} (h : Request.clockSet.check session f = none) :
    (flag f 0 0 = true → 20 ≤ (u16 f 1).toNat ∧ (u16 f 1).toNat ≤ 5000) ∧
      (flag f 0 1 = true → 1 ≤ (u8 f 3).toNat ∧ (u8 f 3).toNat ≤ 16) := by
  have beat := Request.tests_of_check h (2, !flag f 0 0 || within 20 5000 (u16 f 1).toNat) (by simp [Request.tests])
  have bar := Request.tests_of_check h (3, !flag f 0 1 || within 1 16 (u8 f 3).toNat) (by simp [Request.tests])
  exact ⟨fun present => by simpa [present, within_eq] using beat, fun present => by simpa [present, within_eq] using bar⟩

/-! ### What each owner writes (11.3) -/

section
variable (f : List Byte) (s : State)

theorem ownAck_writes : ∃ x, (ownAck f s).1 = { s with reports := x } := by
  unfold ownAck
  dsimp only
  split
  · exact ⟨_, rfl⟩
  · split <;> exact ⟨_, rfl⟩

theorem ownBegin_writes : ∃ x, (ownBegin f s).1 = { s with store := x } := by
  unfold ownBegin
  dsimp only
  split
  · exact ⟨_, rfl⟩
  · split <;> exact ⟨_, rfl⟩

theorem ownAdd_writes : ∃ x, (ownAdd f s).1 = { s with store := x } := by
  unfold ownAdd
  dsimp only
  split
  · exact ⟨_, rfl⟩
  split
  · exact ⟨_, rfl⟩
  split
  · exact ⟨_, rfl⟩
  · split <;> exact ⟨_, rfl⟩

theorem ownEnd_writes : ∃ x, (ownEnd f s).1 = { s with store := x } := by
  unfold ownEnd
  split
  · exact ⟨_, rfl⟩
  · dsimp only
    split <;> exact ⟨_, rfl⟩

theorem ownDrop_writes : ∃ x, (ownDrop f s).1 = { s with store := x } := by
  unfold ownDrop
  dsimp only
  split
  · exact ⟨_, rfl⟩
  · split <;> exact ⟨_, rfl⟩

theorem ownOpen_writes : ∃ x, (ownOpen f s).1 = { s with streams := x } := by
  unfold ownOpen
  dsimp only
  split
  · exact ⟨_, rfl⟩
  · split <;> exact ⟨_, rfl⟩

/-- The part with the move of the duck amount made that a duck depth takes first (R100, log entry 19). -/
def State.duckFirst (s : State) (f : List Byte) : State :=
  if flag f 0 1 then s.duckStep else s

theorem ownOutputSet_eq :
    ownOutputSet f s =
      ({ s with mixer := (s.duckFirst f).mixer.set f }, answerOk ((s.duckFirst f).mixer.set f).results) := by
  unfold ownOutputSet State.duckFirst State.duckStep
  cases flag f 0 1 with
  | false => rfl
  | true => cases s.mixer.duckDue <;> rfl

end

/-! ### The pitch map (R89, R91) -/

theorem writePeriods_getElem (m : Vector Nat 128) (first : Nat) (values : List Nat) (n : Note) :
    (writePeriods m first values)[n] =
      if first ≤ n.val ∧ n.val < first + values.length then values.getD (n.val - first) 0 else m[n] :=
  Vector.getElem_ofFn n.isLt

/-- MAP.WRITE takes in only periods that it does not call bad. -/
theorem mapOk_writePeriods {m : Vector Nat 128} (h : mapOk m) (first : Nat) {values : List Nat}
    (hv : ∀ p ∈ values, p = 0 ∨ 32 ≤ p ∧ p ≤ 65535) : mapOk (writePeriods m first values) := by
  intro n
  rw [writePeriods_getElem]
  split
  · rename_i written
    rw [← List.getElem_eq_getD (h := (by omega : n.val - first < values.length))]
    exact hv _ (List.getElem_mem _)
  · exact h n

theorem readPeriods_in_range {f : List Byte} {n : Nat} (h : (readPeriods f n).findIdx? badPeriod = none) :
    ∀ p ∈ readPeriods f n, p = 0 ∨ 32 ≤ p ∧ p ≤ 65535 := by
  intro p hp
  have good : badPeriod p = false := List.findIdx?_eq_none_iff.mp h p hp
  obtain ⟨k, -, rfl⟩ := List.mem_map.mp hp
  have wide := (u16 f (2 + 2 * k)).isLt
  simp only [badPeriod, within_eq, decide_eq_false_iff_not] at good
  omega

theorem ownMapWrite_writes {s : State} (h : mapOk s.pitchMap) (f : List Byte) :
    ∃ m, mapOk m ∧ (ownMapWrite f s).1 = { s with pitchMap := m } := by
  unfold ownMapWrite
  dsimp only
  split
  · exact ⟨_, h, rfl⟩
  split
  · exact ⟨_, h, rfl⟩
  · rename_i good
    exact ⟨_, mapOk_writePeriods h _ (readPeriods_in_range good), rfl⟩

/-! ### The mixer (R99 to R102) -/

theorem duckTarget_le (depth : Nat) (r : Voice) : Machine.duckTarget depth r ≤ depth := by
  rw [duckTarget_eq]
  split
  · exact le_refl depth
  · exact Nat.zero_le depth

theorem mixValue_in_range (sum : Int) (factor : Nat) : -512 ≤ mixValue sum factor ∧ mixValue sum factor ≤ 511 := by
  unfold mixValue
  dsimp only
  split_ifs <;> omega

namespace Mixer.Ok

variable {m : Mixer} (h : m.Ok)
include h

theorem duckMove {target : Nat} (ht : target ≤ 15) : (m.duckMove target).Ok := by
  obtain ⟨volume, factor, depth, amount, value⟩ := h
  refine ⟨volume, factor, depth, ?_, value⟩
  simp only [Mixer.duckMove]
  split_ifs <;> omega

/-- The duck amount moves toward a target that the duck depth bounds. -/
theorem duckMove_target (r : Voice) : (m.duckMove (Machine.duckTarget m.duckDepth r)).Ok := by
  obtain ⟨-, -, depth, -⟩ := id h
  exact h.duckMove ((duckTarget_le _ r).trans depth)

/-- MUTEN and the soft mute lower M by a step, and else it moves toward the volume (R101). -/
theorem advance (target : Nat) (muten : Bool) : (m.advance target muten).Ok := by
  obtain ⟨volume, factor, depth, amount, value⟩ := h
  refine ⟨volume, ?_, depth, amount, value⟩
  simp only [Mixer.advance]
  split_ifs <;> omega

theorem set {session : Session} {f : List Byte} (hc : Request.outputSet.check session f = none) : (m.set f).Ok := by
  obtain ⟨givenVolume, givenDepth⟩ := outputSet_in_range hc
  obtain ⟨volume, factor, depth, amount, value⟩ := h
  refine ⟨?_, factor, ?_, amount, value⟩
  · simp only [Mixer.set]
    split
    · exact givenVolume ‹_›
    · exact volume
  · simp only [Mixer.set]
    split
    · exact givenDepth ‹_›
    · exact depth

/-- The output value is clipped (R99). -/
theorem output (sum : Int) (pwm : PwmPeriod) : Mixer.Ok { m with value := mixValue sum m.masterFactor, pwm := pwm } := by
  obtain ⟨volume, factor, depth, amount, -⟩ := h
  exact ⟨volume, factor, depth, amount, mixValue_in_range sum m.masterFactor⟩

end Mixer.Ok

theorem Mixer.Ok.putVoice {s : State} (h : s.mixer.Ok) (v : VoiceId) (r : Voice) : (s.putVoice v r).mixer.Ok := by
  rw [State.putVoice_eq]
  dsimp only
  split
  · exact h
  split
  · exact h.duckMove_target _
  · exact h

theorem Mixer.Ok.duckFirst {s : State} (h : s.mixer.Ok) (f : List Byte) : (s.duckFirst f).mixer.Ok := by
  unfold State.duckFirst State.duckStep
  split
  · split
    · exact h.duckMove_target _
    · exact h
  · exact h

/-! ### The time base (R107) -/

def TimeBase.LengthsOk (t : TimeBase) : Prop :=
  (20 ≤ t.configuredBeat ∧ t.configuredBeat ≤ 5000) ∧ 20 ≤ t.effectiveBeat ∧ t.effectiveBeat ≤ 5000

def TimeBase.BarOk (t : TimeBase) : Prop :=
  (1 ≤ t.configuredBar ∧ t.configuredBar ≤ 16) ∧ (1 ≤ t.barInForce ∧ t.barInForce ≤ 16) ∧
    1 ≤ t.beatInBar ∧ t.beatInBar ≤ t.barInForce

def TimeBase.SyncOk (t : TimeBase) : Prop :=
  (t.sync = .internal ↔ t.source = .internal) ∧ (t.lossReference.isSome ↔ t.sync = .seeking ∨ t.sync = .locked) ∧
    (t.previousSync.isSome → t.sync = .locked) ∧ (t.beatAsk = some .sync → t.source = .external)

/-- R107 in three parts, each of which an update writes or leaves alone as a whole. -/
theorem TimeBase.ok_iff (t : TimeBase) : t.Ok ↔ t.LengthsOk ∧ t.BarOk ∧ t.SyncOk := by
  unfold TimeBase.Ok TimeBase.LengthsOk TimeBase.BarOk TimeBase.SyncOk
  tauto

namespace TimeBase.Ok

variable {t : TimeBase} (h : t.Ok)
include h

theorem internalLength : t.internalLength.Ok := by
  unfold TimeBase.internalLength
  split
  · obtain ⟨⟨configured, -⟩, bar, sync⟩ := t.ok_iff.mp h
    exact (TimeBase.ok_iff _).mpr ⟨⟨configured, configured⟩, bar, sync⟩
  · exact h

/-- The measured interval is held to the range of a beat length (R110). -/
theorem syncLength : t.syncLength.Ok := by
  obtain ⟨⟨configured, -⟩, bar, sync⟩ := t.ok_iff.mp h
  rw [TimeBase.syncLength_eq]
  refine (TimeBase.ok_iff _).mpr ⟨⟨configured, ?_⟩, bar, sync⟩
  dsimp only
  split <;> omega

/-- A position short of the bar's end moves on by 1, and any other goes back to 1 (R108). -/
theorem movePosition : t.movePosition.Ok := by
  obtain ⟨lengths, ⟨configured, -, low, -⟩, source, loss, previous, -⟩ := t.ok_iff.mp h
  rw [TimeBase.movePosition_eq]
  refine (TimeBase.ok_iff _).mpr ⟨lengths, ⟨configured, configured, ?_⟩, source, loss, previous, nofun⟩
  dsimp only
  split
  · exact ⟨le_refl 1, configured.1⟩
  · rename_i short
    simp only [Bool.or_eq_true, decide_eq_true_eq, not_or] at short
    omega

/-- A SYNC edge is asked under source EXTERNAL only, so the sync state is not INTERNAL where it is taken. -/
theorem atSync (ha : t.beatAsk = some .sync) : t.atSync.Ok := by
  obtain ⟨lengths, bar, -⟩ := (TimeBase.ok_iff _).mp h.syncLength
  obtain ⟨-, -, -, -, -, ask⟩ := t.ok_iff.mp h
  have source := ask ha
  refine (TimeBase.ok_iff _).mpr ⟨lengths, bar, ?_⟩
  rw [TimeBase.atSync_eq]
  simp [TimeBase.SyncOk, source]

/-- A loss is found in SEEKING and LOCKED only, where the source is EXTERNAL (R118). -/
theorem atLoss (hl : t.lossFound = true) : t.atLoss.Ok := by
  have seeks : t.sync = .seeking ∨ t.sync = .locked := by
    simp only [TimeBase.lossFound, Bool.and_eq_true, Bool.or_eq_true, beq_iff_eq] at hl
    exact hl.1.2
  obtain ⟨lengths, bar, source, -, -, ask⟩ := t.ok_iff.mp h
  have external : t.source ≠ .internal := fun k => by simp [source.mpr k] at seeks
  exact (TimeBase.ok_iff _).mpr ⟨lengths, bar, by simp [TimeBase.atLoss, external], by simp [TimeBase.atLoss], nofun, ask⟩

/-- An advance asks for a SYNC edge under source EXTERNAL only (R115). -/
theorem advance (line : Bool) : (t.advance line).Ok := by
  obtain ⟨lengths, bar, source, loss, previous, -⟩ := t.ok_iff.mp h
  unfold TimeBase.advance
  dsimp only
  split
  · rename_i edge
    exact (TimeBase.ok_iff _).mpr ⟨lengths, bar, source, loss, previous, fun _ => edge.2⟩
  · refine (TimeBase.ok_iff _).mpr ⟨lengths, bar, source, loss, previous, fun k => ?_⟩
    dsimp only at k
    split at k <;> cases k

/-- A change of source takes its sync state and its loss reference with it (R116). -/
theorem changeSource (ha : t.beatAsk = none) (source : ClockSource) : (t.changeSource source).Ok := by
  obtain ⟨lengths, bar, -⟩ := t.ok_iff.mp h
  cases source with
  | internal => exact (TimeBase.ok_iff _).mpr ⟨lengths, bar, by simp [TimeBase.SyncOk, TimeBase.changeSource, ha]⟩
  | external => exact (TimeBase.ok_iff _).mpr ⟨lengths, bar, by simp [TimeBase.SyncOk, TimeBase.changeSource]⟩

end TimeBase.Ok

/-- The lengths a CLOCK.SET stores, before its change of source (R112). -/
def TimeBase.lengthsSet (t : TimeBase) (f : List Byte) : TimeBase :=
  { t with
    configuredBeat := if flag f 0 0 then (u16 f 1).toNat else t.configuredBeat
    lengthPending := if flag f 0 0 then true else t.lengthPending
    configuredBar := if flag f 0 1 then (u8 f 3).toNat else t.configuredBar }

theorem TimeBase.set_eq (t : TimeBase) (f : List Byte) :
    t.set f =
      match t.newSource f with
      | some source => (t.lengthsSet f).changeSource source
      | none => t.lengthsSet f := by
  have lengths : t.lengthsSet f =
      (if flag f 0 1 then
        { (if flag f 0 0 then { t with configuredBeat := (u16 f 1).toNat, lengthPending := true } else t) with
          configuredBar := (u8 f 3).toNat }
      else if flag f 0 0 then { t with configuredBeat := (u16 f 1).toNat, lengthPending := true } else t) := by
    unfold TimeBase.lengthsSet
    cases flag f 0 0 <;> cases flag f 0 1 <;> rfl
  rw [lengths]
  rfl

theorem TimeBase.Ok.lengthsSet {t : TimeBase} (h : t.Ok) {session : Session} {f : List Byte}
    (hc : Request.clockSet.check session f = none) : (t.lengthsSet f).Ok := by
  obtain ⟨givenBeat, givenBar⟩ := clockSet_in_range hc
  obtain ⟨⟨configured, effective⟩, ⟨bar, position⟩, sync⟩ := t.ok_iff.mp h
  refine (TimeBase.ok_iff _).mpr ⟨⟨?_, effective⟩, ⟨?_, position⟩, sync⟩
  · simp only [TimeBase.lengthsSet]
    split
    · exact givenBeat ‹_›
    · exact configured
  · simp only [TimeBase.lengthsSet]
    split
    · exact givenBar ‹_›
    · exact bar

theorem TimeBase.Ok.set {t : TimeBase} (h : t.Ok) (ha : t.beatAsk = none) {session : Session} {f : List Byte}
    (hc : Request.clockSet.check session f = none) : (t.set f).Ok := by
  rw [TimeBase.set_eq]
  split
  · exact (h.lengthsSet hc).changeSource ha _
  · exact h.lengthsSet hc

/-! ### The link (R160 to R164) -/

/-- A reply cache as R162 has it: at most 8 entries with distinct tags, none with tag 0. -/
def CacheOk (cache : List CacheEntry) : Prop :=
  cache.length ≤ 8 ∧ (cache.map CacheEntry.tag).Nodup ∧ 0 ∉ cache.map CacheEntry.tag

/-- The entries that a recorded reply of this tag leaves in the cache: none of its tag, and not the oldest of 8 (R162). -/
def roomFor (num : Byte) (cache : List CacheEntry) : List CacheEntry :=
  let kept := cache.filter fun e => e.tag != num
  if kept.length = cache.length ∧ 8 ≤ cache.length then kept.drop 1 else kept

theorem roomFor_sublist (num : Byte) (cache : List CacheEntry) :
    (roomFor num cache).Sublist (cache.filter fun e => e.tag != num) := by
  unfold roomFor
  dsimp only
  split
  · exact List.drop_sublist _ _
  · exact List.Sublist.refl _

theorem roomFor_length {num : Byte} {cache : List CacheEntry} (h : cache.length ≤ 8) : (roomFor num cache).length ≤ 7 := by
  have fewer : (cache.filter fun e => e.tag != num).length ≤ cache.length := List.length_filter_le _ _
  unfold roomFor
  dsimp only
  split
  · rw [List.length_drop]
    omega
  · omega

theorem CacheOk.record {cache : List CacheEntry} (h : CacheOk cache) {e : CacheEntry} (he : e.tag ≠ 0) :
    CacheOk (roomFor e.tag cache ++ [e]) := by
  obtain ⟨length, distinct, nonzero⟩ := h
  have sub := roomFor_sublist e.tag cache
  have tags := (sub.trans List.filter_sublist).map CacheEntry.tag
  have new : e.tag ∉ (roomFor e.tag cache).map CacheEntry.tag := fun k => by
    obtain ⟨x, hx, same⟩ := List.mem_map.mp k
    simpa [same] using List.of_mem_filter (sub.subset hx)
  refine ⟨?_, ?_, ?_⟩
  · have := roomFor_length (num := e.tag) length
    rw [List.length_append, List.length_singleton]
    omega
  · rw [List.map_append]
    exact (distinct.sublist tags).append (List.nodup_singleton _) (by simpa using new)
  · rw [List.map_append, List.mem_append]
    rintro (old | own)
    · exact nonzero (tags.subset old)
    · exact he (List.mem_singleton.mp own).symm

theorem Link.record_eq (l : Link) (num code : Byte) (f body : List Byte) :
    l.record num code f body = l ∨
      num ≠ 0 ∧
        l.record num code f body =
          { l with
            cache := roomFor num l.cache ++ [{ tag := num, code := code, scope := scopeOf code f, body := body }] } := by
  unfold Link.record
  split
  · exact .inl rfl
  · rename_i recorded
    exact .inr ⟨fun k => recorded (.inl k), rfl⟩

namespace Link.Ok

variable {l : Link} (h : l.Ok)
include h

theorem withCache {cache : List CacheEntry} (hc : CacheOk cache) : Link.Ok { l with cache := cache } := by
  obtain ⟨-, -, -, rest⟩ := h
  obtain ⟨length, distinct, nonzero⟩ := hc
  exact ⟨length, distinct, nonzero, rest⟩

theorem record (num code : Byte) (f body : List Byte) : (l.record num code f body).Ok := by
  obtain e | ⟨hn, e⟩ := l.record_eq num code f body
  · rw [e]
    exact h
  · obtain ⟨length, distinct, nonzero, -⟩ := id h
    rw [e]
    exact h.withCache (CacheOk.record (e := ⟨num, _, _, _⟩) ⟨length, distinct, nonzero⟩ hn)

/-- A reply joins at the tail, so that the oldest one, which may be on TXD, stays the oldest (R163). -/
theorem push (hl : l.replies.length < 2) (num : Byte) (body : List Byte) (full : Bool) : (l.push num body full).Ok := by
  obtain ⟨length, distinct, nonzero, -, onLine, counts⟩ := h
  refine ⟨length, distinct, nonzero, ?_, fun bytes k => ?_, counts⟩
  · simp only [Link.push, List.length_append, List.length_singleton]
    omega
  · obtain ⟨p, rest, e, frame⟩ := onLine bytes k
    exact ⟨p, rest ++ _, by simp only [Link.push, e, List.cons_append]; rfl, frame⟩

theorem transmit {x : Transmitter}
    (hx : ∀ bytes, x = .reply bytes → ∃ p rest, l.replies = p :: rest ∧ bytes = frame typeReply p.num p.body) :
    Link.Ok { l with transmitter := x } := by
  obtain ⟨length, distinct, nonzero, pending, -, counts⟩ := h
  exact ⟨length, distinct, nonzero, pending, hx, counts⟩

/-- With the transmitter idle, replies may go (R163, R164). -/
theorem idle {replies : List PendingReply} (hr : replies.length ≤ 2) :
    Link.Ok { l with transmitter := .idle, replies := replies } := by
  obtain ⟨length, distinct, nonzero, -, -, counts⟩ := h
  exact ⟨length, distinct, nonzero, hr, nofun, counts⟩

theorem withCounts {discards overruns : Nat} (hd : discards ≤ 65535) (ho : overruns ≤ 65535) :
    Link.Ok { l with discards := discards, overruns := overruns } := by
  obtain ⟨length, distinct, nonzero, pending, onLine, -⟩ := h
  exact ⟨length, distinct, nonzero, pending, onLine, hd, ho⟩

end Link.Ok

theorem Link.Ok.chooseFrame {s : State} (h : s.link.Ok) : s.chooseFrame.link.Ok := by
  obtain e | ⟨p, rest, -, first, e⟩ | ⟨k, r, -, -, -, -, -, -, e⟩ := chooseFrame_cases s
  · rw [e]
    exact h
  · rw [e]
    exact h.transmit fun bytes k => ⟨p, rest, first, (Transmitter.reply.inj k).symm⟩
  · rw [e]
    exact h.transmit nofun

theorem Link.Ok.own {s : State} (h : s.link.Ok) {r : Request} (hr : r ≠ .linkOpen) (f : List Byte) :
    (r.own f s).1.link.Ok := by
  rw [(own_link r f s).resolve_left hr]
  exact h

/-! ### Every step (O59) -/

/-- What O59 says of a state: the blocks with ranges hold them. -/
structure State.InRange (s : State) : Prop where
  map : mapOk s.pitchMap
  time : s.time.Ok
  mixer : s.mixer.Ok
  link : s.link.Ok

theorem State.InRange.congr {s t : State} (h : s.InRange) (hm : t.pitchMap = s.pitchMap) (ht : t.time = s.time)
    (hx : t.mixer = s.mixer) (hl : t.link = s.link) : t.InRange :=
  ⟨hm ▸ h.map, ht ▸ h.time, hx ▸ h.mixer, hl ▸ h.link⟩

theorem State.restart_inRange (s : State) (cause : ResetCause) (straps : Straps) (store : PhraseStore)
    {pitchMap : Vector Nat 128} (h : mapOk pitchMap) : (s.restart cause straps store pitchMap).InRange :=
  ⟨h, TimeBase.afterReset_ok, Mixer.afterReset_ok straps, Link.afterReset_ok cause straps⟩

/-- Each update of a command keeps the ranges: it leaves a block alone, or keeps its ranges by the lemmas above. -/
theorem kept_ranges : Kept State.InRange where
  offer _ _ h := h.congr rfl rfl rfl rfl
  sched _ _ h := h.congr rfl rfl rfl rfl
  passes _ _ h := h.congr rfl rfl rfl rfl
  putVoice s v r h :=
    { map := by rw [State.putVoice_pitchMap]; exact h.map
      time := by rw [State.putVoice_time]; exact h.time
      mixer := h.mixer.putVoice v r
      link := by rw [State.putVoice_link]; exact h.link }
  refUp _ _ h := h.congr rfl rfl rfl rfl
  refDown _ _ h := h.congr rfl rfl rfl rfl
  stream _ _ _ _ h := h.congr rfl rfl rfl rfl
  useHead _ _ _ _ _ _ _ h := h.congr rfl rfl rfl rfl
  closeStream s i h :=
    h.congr (s.closeStream_pitchMap i) (s.closeStream_time i) (s.closeStream_mixer i) (s.closeStream_link i)
  triggers _ _ h := h.congr rfl rfl rfl rfl
  chooseFrame s h :=
    { map := by rw [State.chooseFrame_pitchMap]; exact h.map
      time := by rw [State.chooseFrame_time]; exact h.time
      mixer := by rw [State.chooseFrame_mixer]; exact h.mixer
      link := h.link.chooseFrame }
  replyLeft s h :=
    { h with
      link := by
        obtain ⟨-, -, -, pending, -⟩ := h.link
        exact h.link.idle (by rw [List.length_drop]; omega) }
  reportSent s h := by
    unfold State.reportSent
    split
    · exact { h with link := h.link.transmit nofun }
    · exact h
  hold _ _ h := { h with link := h.link }
  countDiscard s h := by
    obtain ⟨-, -, -, -, -, -, overruns⟩ := h.link
    exact { h with link := h.link.withCounts (by omega) overruns }
  gapZero _ h := { h with link := h.link }
  heard _ h := { h with link := h.link }
  overrun s h := by
    obtain ⟨-, -, -, -, -, discards, -⟩ := h.link
    exact { h with link := h.link.withCounts discards (by omega) }
  again _ num _ _ e hl _ h := { h with link := h.link.push hl num e.body false }
  reply _ num code f _ hl h := { h with link := (h.link.push hl num _ _).record num code f _ }
  stalled _ h := { h with link := h.link }
  goBack _ _ h := h.congr rfl rfl rfl rfl
  internalEdge _ _ h := { h with time := h.time.internalLength.movePosition }
  syncEdge _ ha h := { h with time := h.time.atSync ha }
  move _ h := { h with time := h.time.movePosition }
  loss _ hl h := { h with time := h.time.atLoss hl }
  duckMove _ h := { h with mixer := h.mixer.duckMove_target _ }
  output _ _ h := { h with mixer := h.mixer.output _ _ }
  clockVoices _ h := h.congr rfl rfl rfl rfl
  advanced _ lines h :=
    { map := h.map
      time := TimeBase.Ok.advance (t := TimeBase.count _) h.time lines.sync
      mixer := h.mixer.advance _ lines.muten
      link := h.link }
  powerOn s straps := s.restart_inRange _ straps _ defaultPitchMap_ok
  resetKept s cause straps h := s.restart_inRange cause straps _ h.map
  softAtReplyEnd s h :=
    have restarted := s.restart_inRange .soft s.straps s.store.afterPin h.map
    { restarted with link := restarted.link }
  sampleStraps _ _ h := { h with mixer := h.mixer, link := h.link }
  takeReset s h := by
    obtain ⟨-, -, -, pending, -⟩ := h.link
    exact { h with mixer := h.mixer, link := h.link.idle pending }
  pending _ _ h := h.congr rfl rfl rfl rfl
  linkOpen _ _ _ h :=
    { h with link := (h.link.withCache ⟨by simp, by simp, by simp⟩).withCounts (Nat.zero_le _) (Nat.zero_le _) }
  select _ _ h := h.congr rfl rfl rfl rfl
  ack f s h := by obtain ⟨x, e⟩ := ownAck_writes f s; rw [e]; exact h.congr rfl rfl rfl rfl
  begin f s h := by obtain ⟨x, e⟩ := ownBegin_writes f s; rw [e]; exact h.congr rfl rfl rfl rfl
  add f s h := by obtain ⟨x, e⟩ := ownAdd_writes f s; rw [e]; exact h.congr rfl rfl rfl rfl
  finish f s h := by obtain ⟨x, e⟩ := ownEnd_writes f s; rw [e]; exact h.congr rfl rfl rfl rfl
  drop f s h := by obtain ⟨x, e⟩ := ownDrop_writes f s; rw [e]; exact h.congr rfl rfl rfl rfl
  mapWrite f s h := by obtain ⟨m, hm, e⟩ := ownMapWrite_writes h.map f; rw [e]; exact { h with map := hm }
  mapRestore _ _ h := by unfold ownMapRestore; exact { h with map := defaultPitchMap_ok }
  outputSet f s hc h := by rw [ownOutputSet_eq]; exact { h with mixer := (h.mixer.duckFirst f).set hc }
  timeSet _ _ hc ha h := { h with time := h.time.set ha hc }
  barRestart _ h := { h with time := h.time }
  open_ f s _ h := by obtain ⟨x, e⟩ := ownOpen_writes f s; rw [e]; exact h.congr rfl rfl rfl rfl
  stock _ _ _ _ _ _ _ _ _ _ h := h.congr rfl rfl rfl rfl

/-- Settles O59: a sound state is in range, and every update keeps the ranges, so every step does. -/
theorem stepsKeepRanges : Obligations.StepsKeepRanges := fun s t sound e => by
  obtain ⟨map, time, mixer, link⟩ := kept_ranges.step s t e ⟨sound.map, sound.time, sound.mixer, sound.link⟩
  exact ⟨map, time, mixer, link⟩

end Sys2Proof.Machine
end

section
/-! What MAP.WRITE, MAP.RESTORE and OUTPUT.SET answer and leave (R90, R91, R93, R100, R102), and the part held in reset
(R103, R171, R172, R182). -/

namespace Sys2Proof.Machine

/-! ### MAP.WRITE (R91) -/

theorem exec_mapWrite {s : State} {num : Byte} {f : List Byte} (h : s.Passes .mapWrite num f) :
    exec (.mapWrite num f) s = .next (State.answered (ownMapWrite f s.heard).1 .mapWrite num f (ownMapWrite f s.heard).2) :=
  exec_passes rfl h rfl

section
variable {s : State} {f : List Byte}

theorem ownMapWrite_past (h : 127 < (u8 f 0).toNat + (u8 f 1).toNat - 1) : ownMapWrite f s = (s, badParam 1) := by
  simp only [ownMapWrite, h, if_true]

theorem ownMapWrite_bad (h : (u8 f 0).toNat + (u8 f 1).toNat - 1 ≤ 127) {k : Nat}
    (hk : (readPeriods f (u8 f 1).toNat).findIdx? badPeriod = some k) : ownMapWrite f s = (s, badParam 3 (byteOf k)) := by
  simp only [ownMapWrite, Nat.not_lt.mpr h, if_false, hk]

theorem ownMapWrite_accepted (h : (u8 f 0).toNat + (u8 f 1).toNat - 1 ≤ 127)
    (hv : (readPeriods f (u8 f 1).toNat).findIdx? badPeriod = none) :
    ownMapWrite f s =
      ({ s with pitchMap := writePeriods s.pitchMap (u8 f 0).toNat (readPeriods f (u8 f 1).toNat) },
        answerOk [u8 f 0, u8 f 1]) := by
  simp only [ownMapWrite, Nat.not_lt.mpr h, if_false, hv]

end

/-- A period of a MAP.WRITE stands high byte first (R185). -/
def periodAt (f : List Byte) (k : Nat) : Nat :=
  (u8 f (2 + 2 * k) ++ u8 f (3 + 2 * k)).toNat

theorem readPeriods_eq (f : List Byte) (n : Nat) : readPeriods f n = (List.range n).map (periodAt f) := by
  refine List.map_congr_left fun k _ => ?_
  rw [u16, periodAt, show 2 + 2 * k + 1 = 3 + 2 * k by omega]

theorem readPeriods_length (f : List Byte) (n : Nat) : (readPeriods f n).length = n := by simp [readPeriods]

theorem readPeriods_getD {f : List Byte} {n k : Nat} (h : k < n) : (readPeriods f n).getD k 0 = periodAt f k := by
  simp [readPeriods_eq, h]

theorem badPeriod_iff (p : Nat) : badPeriod p = true ↔ 1 ≤ p ∧ p ≤ 31 := by
  rw [badPeriod, within_eq, decide_eq_true_iff]

theorem badPeriod_eq_false (p : Nat) : badPeriod p = false ↔ p = 0 ∨ 32 ≤ p := by
  rw [badPeriod, within_eq, decide_eq_false_iff_not]
  omega

/-- The first value that the map does not take (R91). -/
theorem readPeriods_first_bad {f : List Byte} {n k : Nat} (hk : k < n) (bad : badPeriod (periodAt f k) = true)
    (good : ∀ j, j < k → badPeriod (periodAt f j) = false) : (readPeriods f n).findIdx? badPeriod = some k := by
  refine List.findIdx?_eq_some_iff_getElem.mpr ⟨by rwa [readPeriods_length], by simpa [readPeriods_eq] using bad,
    fun j hj => ?_⟩
  simpa [readPeriods_eq] using good j hj

theorem readPeriods_good {f : List Byte} {n : Nat} (good : ∀ k, k < n → badPeriod (periodAt f k) = false) :
    (readPeriods f n).findIdx? badPeriod = none := by
  refine List.findIdx?_eq_none_iff.mpr fun p hp => ?_
  rw [readPeriods_eq] at hp
  obtain ⟨k, hk, rfl⟩ := List.mem_map.mp hp
  exact good k (List.mem_range.mp hk)

/-! ### MAP.RESTORE (R90, R93) -/

theorem exec_mapRestore {s : State} {num : Byte} {f : List Byte} (h : s.Passes .mapRestore num f) :
    exec (.mapRestore num f) s =
      .next (State.answered { s with pitchMap := defaultPitchMap } .mapRestore num f { status := .ok, results := [] }) :=
  exec_passes rfl h rfl

theorem defaultPeriods_nearest : ∀ n : Note, nearestPeriod n.val (defaultPeriods.getD n.val 0) := by
  unfold nearestPeriod
  decide +kernel

theorem defaultPitchMap_getElem (n : Note) : defaultPitchMap[n] = defaultPeriods.getD n.val 0 :=
  Vector.getElem_ofFn n.isLt

theorem defaultPitchMap_pos (n : Note) : defaultPitchMap[n] ≠ 0 := by
  have listed : n.val < defaultPeriods.length := n.isLt
  have := (defaultPeriods_ok _ (List.getElem_mem listed)).1
  rw [defaultPitchMap_getElem, ← List.getElem_eq_getD (h := listed)]
  omega

/-- Settles O37: each outcome of MAP.WRITE in turn, and the printed periods are the nearest ones. -/
theorem mapIsWrittenAndRestored : Obligations.MapIsWrittenAndRestored := by
  refine ⟨fun s num f h => ⟨fun past => ?past, fun fits => ⟨fun k hk low high good => ?bad, fun good => ?accepted⟩⟩,
    fun s num f h => ⟨defaultPitchMap, exec_mapRestore h, fun n => ⟨?nearest, ?range⟩⟩⟩
  case past =>
    rw [exec_mapWrite h, ownMapWrite_past past]
    rfl
  case bad =>
    have first := readPeriods_first_bad hk ((badPeriod_iff _).mpr ⟨low, high⟩) fun j hj =>
      (badPeriod_eq_false _).mpr (good j hj)
    rw [exec_mapWrite h, ownMapWrite_bad fits first]
    rfl
  case accepted =>
    have taken := readPeriods_good fun k hk => (badPeriod_eq_false _).mpr (good k hk)
    refine ⟨writePeriods s.pitchMap (u8 f 0).toNat (readPeriods f (u8 f 1).toNat), ?_, fun n => ?_⟩
    · rw [exec_mapWrite h, ownMapWrite_accepted fits taken]
      rfl
    · rw [writePeriods_getElem, readPeriods_length]
      split
      · rename_i written
        exact readPeriods_getD (by omega)
      · rfl
  case nearest =>
    rw [defaultPitchMap_getElem]
    exact defaultPeriods_nearest n
  case range => exact (defaultPitchMap_ok n).resolve_left (defaultPitchMap_pos n)

/-! ### OUTPUT.SET (R100, R102) -/

theorem exec_outputSet {s : State} {num : Byte} {f : List Byte} (h : s.Passes .outputSet num f) :
    exec (.outputSet num f) s =
      .next (State.answered (ownOutputSet f s.heard).1 .outputSet num f (ownOutputSet f s.heard).2) :=
  exec_passes rfl h rfl

/-- The mixer of an OUTPUT.SET, written out: with a duck depth given, the move that a duck count of 8 calls for is made
first (log entry 19), and the count ends at 0 (log entry 30). -/
theorem State.duckFirst_set (s : State) (f : List Byte) :
    (s.duckFirst f).mixer.set f =
      { s.mixer with
        masterVolume := if flag f 0 0 then (u8 f 1).toNat else s.mixer.masterVolume
        duckDepth := if flag f 0 1 then (u8 f 2).toNat else s.mixer.duckDepth
        softMute := if flag f 0 2 then u8 f 3 == 1 else s.mixer.softMute
        outputMode := if flag f 0 3 then (if u8 f 4 = 1 then .single else .bridge) else s.mixer.outputMode
        duckCount := if flag f 0 1 then 0 else s.mixer.duckCount
        duckAmount :=
          if flag f 0 1 = true ∧ s.mixer.duckCount = 8 then (s.mixer.duckMove s.duckTarget).duckAmount
          else s.mixer.duckAmount } := by
  unfold State.duckFirst State.duckStep
  cases given : flag f 0 1 with
  | false => simp [Mixer.set, given]
  | true =>
    by_cases due : s.mixer.duckCount = 8
    · simp [Mixer.set, given, Mixer.duckDue, due, Config.duckTicks, Mixer.duckMove]
    · simp [Mixer.set, given, Mixer.duckDue, due, Config.duckTicks]

/-- A voice record calls for ducking, in the words of R100. -/
theorem Voice.ducks_eq (r : Voice) :
    r.ducks =
      match r.state, r.current with
      | .active, some k => k.cue.duck
      | _, _ => false := by
  unfold Voice.ducks
  cases r.state with
  | active => cases r.current <;> rfl
  | _ => rfl

/-- Settles O38: the mixer by `State.duckFirst_set`, and the results read off it. -/
theorem outputSettingsAreSet : Obligations.OutputSettingsAreSet := by
  intro s num f h
  rw [exec_outputSet h, ownOutputSet_eq, State.duckFirst_set, State.duckTarget, duckTarget_eq, Voice.ducks_eq]
  rfl

/-! ### The part held in reset (R172) -/

/-- A part held in reset is not moved by a request or an event (log entry 10). -/
theorem State.act_held {s : State} (h : s.inReset = true) (f : State → State) : s.act f = .next s := by
  rw [State.act, h]
  rfl

/-- Settles O5: every command but the resets is a request, an event, or a deed of `State.act`. -/
theorem pinResetHoldsThePart : Obligations.PinResetHoldsThePart := by
  refine ⟨fun s => rfl, fun s c held notPower notPin notTaken => ?_⟩
  have still := State.act_held held
  have event (e : Event) : s.event e = .next s := still _
  cases hq : requestOf c with
  | some x =>
    obtain ⟨r, num, f⟩ := x
    rw [exec_request c s r num f hq]
    exact still _
  | none =>
    cases c with
    | powerOnReset straps => exact absurd rfl (notPower straps)
    | pinReset straps => exact absurd rfl (notPin straps)
    | pinResetTaken => exact absurd rfl notTaken
    | softReset straps => exact still fun t => t.softReset straps
    | frameDiscard => exact still State.badStop
    | replySent => exact still State.replySent
    | reportFrameSent => exact still State.reportSent
    | tickAdvance lines => exact still fun t => t.tick lines
    | outputSample => exact still State.sampleOutput
    | blockUsedUp => exact still State.finishBlock
    | noiseShift v => exact still fun t => t.putVoice v (t.voice v).noiseShift
    | byteReceived byte => exact still fun t => t.byteIn byte
    | dueEvent => exact event .due
    | waitDeadline tag => exact event (.deadline tag)
    | frameAbandon => exact event .abandon
    | allocationPass => exact event .pass
    | handoffComplete v => exact event (.handoff v)
    | releaseComplete v => exact event (.release v)
    | rateCountStep v => exact event (.rate v)
    | stepEnd v => exact event (.stepEnd v)
    | gateRunsOut v => exact event (.gate v)
    | duckStep => exact event .duck
    | starveLimit slot => exact event (.starve slot)
    | internalBeatEdge => exact event .internalEdge
    | syncEdge => exact event .syncEdge
    | syncLoss => exact event .loss
    | silenceTimeout => exact event .silence
    | retransmissionTimer => exact event .retransmit
    | firingEvent line => exact event (.firing line)
    | _ => cases hq

end Sys2Proof.Machine
end

section
/-! The oscillators up to their next shift (R94, R96, log entry 6). -/

namespace Sys2Proof.Machine

/-! ### The noise register (R96) -/

theorem noiseShiftReg_fed (r : BitVec 15) :
    (noiseShiftReg r).getLsbD 0 = (r.getLsbD 14 != r.getLsbD 13) := by
  rw [noiseShiftReg, BitVec.getLsbD_or]
  cases r.getLsbD 14 != r.getLsbD 13 <;> simp

theorem noiseShiftReg_moved (r : BitVec 15) {k : Nat} (h : k < 14) :
    (noiseShiftReg r).getLsbD (k + 1) = r.getLsbD k := by
  have within : k + 1 < 15 := Nat.succ_lt_succ h
  have place : r.getLsbD k = r[k] := BitVec.getLsbD_eq_getElem _
  rw [noiseShiftReg, BitVec.getLsbD_or]
  cases r.getLsbD 14 != r.getLsbD 13 <;> simp [within, place]

/-- The register is not all zeros: place 14, which is lost, comes back in place 0 unless place 13 stands too, which moves
up. -/
theorem noiseShiftReg_ne_zero {r : BitVec 15} (h : r ≠ 0) : noiseShiftReg r ≠ 0 := by
  intro zero
  have bit (k : Nat) : (noiseShiftReg r).getLsbD k = false := by rw [zero]; exact BitVec.getLsbD_zero
  have low (k : Nat) (hk : k < 14) : r.getLsbD k = false := noiseShiftReg_moved r hk ▸ bit (k + 1)
  have top : r.getLsbD 14 = false := by
    have fed := (noiseShiftReg_fed r).symm.trans (bit 0)
    rwa [low 13 (by omega), Bool.bne_false] at fed
  refine h (BitVec.eq_of_getLsbD_eq fun k hk => ?_)
  refine Eq.trans ?_ BitVec.getLsbD_zero.symm
  obtain below | rfl : k < 14 ∨ k = 14 := by omega
  · exact low k below
  · exact top

/-! ### Voice clocks (R94) -/

theorem Oscillator.clock_noise_ne_zero {period : Nat} {o : Oscillator} (h : o.noise ≠ 0) : (o.clock period).noise ≠ 0 := by
  unfold Oscillator.clock
  by_cases still : period = 0
  · rw [if_pos still]
    exact h
  · rw [if_neg still]
    dsimp only
    generalize (if 2 * period ≤ o.phaseCount + 1 then 0 else o.phaseCount + 1) = count
    split
    · exact noiseShiftReg_ne_zero h
    · exact h

theorem Oscillator.runClocks_noise_ne_zero (period n : Nat) (o : Oscillator) (h : o.noise ≠ 0) :
    (Oscillator.runClocks period n o).noise ≠ 0 := by
  induction n generalizing o with
  | zero => exact h
  | succ n ih => exact ih _ (Oscillator.clock_noise_ne_zero h)

theorem Oscillator.clock_phaseCount {period : Nat} (hp : period ≠ 0) (o : Oscillator) :
    (o.clock period).phaseCount = if 2 * period ≤ o.phaseCount + 1 then 0 else o.phaseCount + 1 := by
  simp only [Oscillator.clock, hp, if_false]

/-- The last of a number of voice clocks. -/
theorem Oscillator.runClocks_succ (period n : Nat) (o : Oscillator) :
    Oscillator.runClocks period (n + 1) o = (Oscillator.runClocks period n o).clock period := by
  induction n generalizing o with
  | zero => rfl
  | succ n ih => exact ih (o.clock period)

/-- Short of twice the period the phase count rises by 1 at each voice clock. -/
theorem Oscillator.runClocks_phaseCount {period : Nat} (hp : period ≠ 0) (o : Oscillator) {n : Nat}
    (h : n = 0 ∨ o.phaseCount + n < 2 * period) : (Oscillator.runClocks period n o).phaseCount = o.phaseCount + n := by
  induction n with
  | zero => rfl
  | succ n ih =>
    rw [Oscillator.runClocks_succ, Oscillator.clock_phaseCount hp, ih (by omega), if_neg (by omega)]
    omega

/-- The phase count is where the register shifts (R94). -/
def Oscillator.AtShift (period : Nat) (o : Oscillator) : Prop :=
  o.phaseCount = period ∨ o.phaseCount = 0

theorem Oscillator.clocksToShift_pos {period : Nat} (o : Oscillator) : 0 < o.clocksToShift period := by
  unfold Oscillator.clocksToShift
  split <;> omega

theorem Oscillator.atShift_clocksToShift {period : Nat} (hp : period ≠ 0) (o : Oscillator) :
    (Oscillator.runClocks period (o.clocksToShift period) o).AtShift period := by
  unfold Oscillator.clocksToShift
  split
  · left
    rw [Oscillator.runClocks_phaseCount hp o (by omega)]
    omega
  · right
    obtain ⟨n, e⟩ := Nat.exists_eq_add_one_of_ne_zero (show max 1 (2 * period - o.phaseCount) ≠ 0 by omega)
    rw [e, Oscillator.runClocks_succ, Oscillator.clock_phaseCount hp, Oscillator.runClocks_phaseCount hp o (by omega),
      if_pos (by omega)]

theorem Oscillator.not_atShift_before {period : Nat} (hp : period ≠ 0) (o : Oscillator) {n : Nat} (h0 : 0 < n)
    (h : n < o.clocksToShift period) : ¬(Oscillator.runClocks period n o).AtShift period := by
  unfold Oscillator.clocksToShift at h
  unfold Oscillator.AtShift
  split at h <;> rw [Oscillator.runClocks_phaseCount hp o (by omega)] <;> omega

/-- The first shift is met after exactly `clocksToShift` voice clocks. -/
theorem Oscillator.clocksToShift_eq {period : Nat} (hp : period ≠ 0) (o : Oscillator) {n : Nat} (h0 : 0 < n)
    (hit : (Oscillator.runClocks period n o).AtShift period)
    (first : ∀ j, 0 < j → j < n → ¬(Oscillator.runClocks period j o).AtShift period) : o.clocksToShift period = n := by
  obtain early | same | late := lt_trichotomy (o.clocksToShift period) n
  · exact absurd (o.atShift_clocksToShift hp) (first _ o.clocksToShift_pos early)
  · exact same
  · exact absurd hit (o.not_atShift_before hp h0 late)

/-! ### NOISE_SHIFT (R94, log entry 6) -/

theorem Voice.period_of_player {r : Voice} {p : Player} (h : r.player = some p) : r.period = p.period := by
  rw [Voice.period, h]
  rfl

theorem Voice.noiseShift_eq {r : Voice} {p : Player} {o : Oscillator} {n : Nat} (hp : r.player = some p)
    (ho : r.osc = some o) (hz : p.period ≠ 0) (hn : o.clocksToShift p.period = n) (room : o.clocks + n ≤ 64) :
    r.noiseShift = { r with osc := some { Oscillator.runClocks p.period n o with clocks := o.clocks + n } } := by
  subst hn
  have takes : p.period ≠ 0 ∧ o.clocks + o.clocksToShift p.period ≤ Config.clocksPerSample := ⟨hz, room⟩
  simp only [Voice.noiseShift, ho, Voice.period_of_player hp]
  rw [if_pos takes]

theorem exec_noiseShift {s : State} {v : VoiceId} (hr : s.inReset = false) :
    exec (.noiseShift v) s = .next (s.putVoice v (s.voice v).noiseShift).chooseFrame := by
  have run : exec (.noiseShift v) s = s.act fun t => t.putVoice v (t.voice v).noiseShift := rfl
  rw [run, State.act, hr]
  rfl

/-- Settles O54: the shift place by place, and the clocks of NOISE_SHIFT by the first shift they meet. -/
theorem oscillatorsRun : Obligations.OscillatorsRun := by
  refine ⟨fun period o => rfl, fun r => ⟨noiseShiftReg_fed r, fun _ => noiseShiftReg_moved r, noiseShiftReg_ne_zero⟩,
    Oscillator.runClocks_noise_ne_zero, fun s v p o n hr hv hp ho hz h0 room hit before => ?_⟩
  have clocks : o.clocksToShift p.period = n :=
    o.clocksToShift_eq hz h0 hit fun j hj hjn => not_or.mpr (before j hj hjn)
  rw [exec_noiseShift hr, State.putVoice_synth hv, Voice.noiseShift_eq hp ho hz clocks room]

end Sys2Proof.Machine
end

section
/-! An output sample: the sample of the stream, the contributions of the voices, and their mix (R95 to R99, R103, R132). -/

namespace Sys2Proof.Machine

/-! ### The clocks up to the sample (log entry 6) -/

theorem State.clockVoices_voice (s : State) (v : VoiceId) : s.clockVoices.voice v = (s.voice v).toSample := by
  simp [State.clockVoices, State.voice]

theorem State.clockVoices_playingSlot (s : State) : s.clockVoices.playingSlot = s.playingSlot := by
  unfold State.playingSlot
  rw [State.clockVoices_voice]
  rfl

theorem Voice.toSample_eq {r : Voice} {p : Player} {o : Oscillator} (hp : r.player = some p) (ho : r.osc = some o) :
    r.toSample =
      { r with osc := some { Oscillator.runClocks p.period (64 - o.clocks) o with clocks := 0 } } := by
  rw [Voice.toSample, ho, Voice.period_of_player hp]
  rfl

/-! ### The sample of the stream (R132) -/

section
variable {s : State} {i : StreamSlotId} {x : OpenStream}

theorem State.takeSample_none (h : s.playingSlot = none) : s.takeSample = (128, s) := by
  simp only [State.takeSample, h]

theorem State.takeSample_silent (hi : s.playingSlot = some i) (hx : s.stream i = some x)
    (h : x.state ≠ .playing ∨ x.filled = []) : s.takeSample = (128, s) := by
  simp only [State.takeSample, hi, hx]
  split
  · rename_i b playing _ head
    obtain stopped | empty := h
    · exact absurd playing stopped
    · rw [State.headBlock, empty] at head
      cases head
  · rfl

/-- The read position at an output sample: past the byte in hand where that has been held for its full hold (R132). -/
def OpenStream.positionNow (x : OpenStream) (r : ReadPosition) : ReadPosition :=
  if r.holdCount = 4 - x.rate.val then { index := r.index + 1, holdCount := 0 } else r

theorem State.takeSample_playing {r : ReadPosition} {b : BlockId} {rest : List BlockId} {d : Block}
    (hi : s.playingSlot = some i) (hx : s.stream i = some x) (hs : x.state = .playing) (hr : x.read = some r)
    (hf : x.filled = b :: rest) (hd : s.streams.blocks[b] = some d) :
    s.takeSample =
      ((d.data.getD (x.positionNow r).index 128#8).toNat,
        s.putStream i
          (some { x with read := some { x.positionNow r with holdCount := (x.positionNow r).holdCount + 1 } })) := by
  have head : s.headBlock x = some d := by rw [State.headBlock, hf]; exact hd
  simp only [State.takeSample, hi, hx, hs, hr, head]
  rfl

end

/-- An output sample moves the streams alone when it takes its sample. -/
theorem State.takeSample_writes (s : State) : s.takeSample.2 = { s with streams := s.takeSample.2.streams } := by
  unfold State.takeSample
  split
  · split
    · split <;> rfl
    · rfl
  · rfl

/-! ### Contributions (R95, R97, R98) -/

/-- What a voice adds to the mix (R97, R98). -/
def State.contribution (s : State) (sample : Nat) (v : VoiceId) : Int :=
  if v = 6 then (s.voice 6).streamContribution sample else (s.voice v).contribution s.mixer.duckAmount

theorem State.mixSum_eq (s : State) (sample : Nat) :
    s.mixSum sample =
      s.contribution sample 0 + s.contribution sample 1 + s.contribution sample 2 + s.contribution sample 3 +
        s.contribution sample 4 + s.contribution sample 5 + s.contribution sample 6 := by
  simp only [State.mixSum, synthVoices, List.map_cons, List.map_nil, List.sum_cons, List.sum_nil, add_zero, ← add_assoc]
  rfl

theorem State.contribution_synth (s : State) (sample : Nat) {v : VoiceId} (h : v ≠ 6) :
    s.contribution sample v = (s.voice v).contribution s.mixer.duckAmount := if_neg h

theorem Voice.contribution_idle {r : Voice} (h : r.state = .idle) (duck : Nat) : r.contribution duck = 0 := by
  simp only [Voice.contribution, h]

theorem Voice.contribution_sounding {r : Voice} {p : Player} {o : Oscillator} (hs : r.state ≠ .idle)
    (hp : r.player = some p) (ho : r.osc = some o) (duck : Nat) :
    r.contribution duck =
      if p.period = 0 then 0
      else if outputHigh p.shape p.period o then 8 * ((r.env.level - duck : Nat) : Int)
      else -(8 * ((r.env.level - duck : Nat) : Int)) := by
  unfold Voice.contribution
  rw [hp, ho]
  cases hr : r.state with
  | idle => exact absurd hr hs
  | _ => rfl

theorem mixValue_eq (sum : Int) (factor : Nat) :
    mixValue sum factor = max (-512) (min 511 ((sum * (factor : Int)).tdiv 31)) := by
  unfold mixValue
  dsimp only
  split_ifs <;> omega

/-! ### The output sample (R99) -/

/-- The part when its seven contributions are added: a used-up block finished, the oscillators run, and the stream's sample
taken. -/
def State.sampled (s : State) : State :=
  s.finishBlock.clockVoices.takeSample.2

theorem State.sampled_eq (s : State) :
    s.sampled = { s.finishBlock.clockVoices with streams := s.sampled.streams } :=
  s.finishBlock.clockVoices.takeSample_writes

theorem State.sampled_voice (s : State) (v : VoiceId) : s.sampled.voice v = (s.finishBlock.voice v).toSample := by
  rw [State.sampled_eq, ← State.clockVoices_voice]

theorem exec_outputSample {s : State} (hr : s.inReset = false) :
    exec .outputSample s = .next s.sampleOutput.chooseFrame := by
  have run : exec .outputSample s = s.act State.sampleOutput := rfl
  rw [run, State.act, hr]
  rfl

theorem State.sampleOutput_streams {s t : State} {sample : Nat} (h : s.finishBlock.clockVoices.takeSample = (sample, t)) :
    s.sampleOutput.streams = t.streams :=
  congrArg (fun x => x.2.streams) h

theorem State.sampled_mixer (s : State) : s.sampled.mixer = s.finishBlock.mixer := by
  rw [State.sampled_eq]
  rfl

theorem State.sampleOutput_mixer (s : State) {sample : Nat} (h : s.finishBlock.clockVoices.takeSample.1 = sample) :
    s.sampleOutput.mixer =
      { s.finishBlock.mixer with
        value := mixValue (s.sampled.mixSum sample) s.finishBlock.mixer.masterFactor
        pwm :=
          pwmOf s.finishBlock.mixer.outputMode
            (mixValue (s.sampled.mixSum sample) s.finishBlock.mixer.masterFactor) } := by
  subst h
  rw [← State.sampled_mixer]
  rfl

/-- Settles O55: the contributions are those of the part as it is sampled. -/
theorem outputSamplesMix : Obligations.OutputSamplesMix := by
  intro s0 hr s run high
  have high_iff (p : Player) (o : Oscillator) : high p o ↔ outputHigh p.shape p.period o = true := by
    simp only [high, outputHigh]
    cases p.shape <;> simp
  have mixer : s0.sampled.mixer = s.mixer := s0.sampled_mixer
  have voice := s0.sampled_voice
  have slot := s.clockVoices_playingSlot
  refine ⟨s0.sampleOutput, s.clockVoices.takeSample.1, s0.sampled.contribution s.clockVoices.takeSample.1,
    exec_outputSample hr, fun v hv idle => ?idle, fun v p o hv sounding hp ho => ?synth, ?stream,
    ⟨fun none => ?none, fun i x hi hx => ⟨fun silent => ?silent, fun r b rest d hs hrd hf hd => ?playing⟩⟩, ?mix, ?frame⟩
  case idle =>
    rw [State.contribution_synth _ _ hv, voice]
    exact Voice.contribution_idle (r := (s.voice v).toSample) idle _
  case synth =>
    have after : (s.voice v).toSample = _ := Voice.toSample_eq hp ho
    have sounds := Voice.contribution_sounding (r := (s.voice v).toSample) sounding hp (congrArg Voice.osc after)
      s0.sampled.mixer.duckAmount
    rw [State.contribution_synth _ _ hv, voice]
    refine ⟨fun silent => sounds.trans (if_pos silent), fun hz hi => sounds.trans ?_, fun hz lo => sounds.trans ?_, ?_⟩
    · rw [if_neg hz, mixer]
      exact if_pos ((high_iff _ _).mp hi)
    · rw [if_neg hz, mixer]
      exact if_neg fun k => lo ((high_iff _ _).mpr k)
    · exact (voice v).trans after
  case stream =>
    rw [State.contribution, if_pos rfl, voice]
    rfl
  case none =>
    have taken := State.takeSample_none (slot.trans none)
    have moved := State.sampleOutput_streams (s := s0) taken
    exact ⟨congrArg Prod.fst taken, moved⟩
  case silent =>
    have taken := State.takeSample_silent (s := s.clockVoices) (slot.trans hi) hx silent
    have moved := State.sampleOutput_streams (s := s0) taken
    exact ⟨congrArg Prod.fst taken, moved⟩
  case playing =>
    have taken := State.takeSample_playing (s := s.clockVoices) (slot.trans hi) hx hs hrd hf hd
    exact ⟨congrArg Prod.fst taken, State.sampleOutput_streams taken⟩
  case mix =>
    rw [State.sampleOutput_mixer s0 rfl, State.mixSum_eq, mixValue_eq]
    rfl
  case frame =>
    have kept {α : Type} (part : State → α) := congrArg part s0.sampled_eq
    exact ⟨kept State.sched, kept State.store, kept State.pitchMap, kept State.time, kept State.triggers,
      kept State.reports, kept State.link, kept fun t => t.alloc.passes, kept State.pending⟩

end Sys2Proof.Machine
end

section
/-! What CLOCK.SET and CLOCK.BAR change at once and what they leave to the next edge (R112, R113, R116, R120). -/

namespace Sys2Proof.Machine

/-! ### The source of the beat (R112, R116) -/

theorem takeLoss_source (s : State) : s.takeLoss.time.source = s.time.source := by
  rw [takeLoss_time]
  split <;> rfl

theorem State.first_source (s : State) (due : Bool) {event : State → State}
    (h : (event s).time.source = s.time.source) : (s.first due event).time.source = s.time.source := by
  unfold State.first
  split
  · rw [State.chooseFrame_time, h]
  · rfl

/-- An edge and a loss taken first leave the source alone (R120). -/
theorem State.beatFirst_source (s : State) : s.beatFirst.time.source = s.time.source :=
  (State.first_source _ _ (takeLoss_source _)).trans (State.first_source _ _ (takeBeat_source s))

/-- The source after a CLOCK.SET: the one it gives, or the one in force where it gives none (R112). -/
def TimeBase.sourceAfter (t : TimeBase) (f : List Byte) : ClockSource :=
  if flag f 0 2 then (if u8 f 4 = 1 then .external else .internal) else t.source

/-- CLOCK.SET gives a new source exactly where the source after it is not the one in force. -/
theorem TimeBase.newSource_eq (t : TimeBase) (f : List Byte) :
    t.newSource f = if t.sourceAfter f = t.source then none else some (t.sourceAfter f) := by
  unfold TimeBase.newSource TimeBase.sourceAfter
  cases flag f 0 2 with
  | true => rfl
  | false => exact (if_pos rfl).symm

theorem TimeBase.changeSource_eq (t : TimeBase) (source : ClockSource) :
    t.changeSource source =
      if source = .external then
        { t with source := .external, sync := .seeking, lossReference := some t.tick, previousSync := none }
      else
        { t with
          source := .internal, sync := .internal, lossReference := none, previousSync := none
          lengthPending := true } := by
  cases source <;> rfl

/-! ### The requests -/

theorem TimeBase.lengthsSet_eq (t : TimeBase) (f : List Byte) :
    t.lengthsSet f =
      { t with
        configuredBeat := if flag f 0 0 then (u16 f 1).toNat else t.configuredBeat
        lengthPending := flag f 0 0 || t.lengthPending
        configuredBar := if flag f 0 1 then (u8 f 3).toNat else t.configuredBar } := by
  rw [TimeBase.lengthsSet, Bool.if_true_left, Bool.decide_eq_true]

/-- The lengths are stored, and a source that differs from the one in force takes effect at once (R112, R116). -/
theorem TimeBase.set_eq_of_source (t : TimeBase) (f : List Byte) :
    t.set f =
      if t.sourceAfter f = t.source then t.lengthsSet f else (t.lengthsSet f).changeSource (t.sourceAfter f) := by
  rw [TimeBase.set_eq, TimeBase.newSource_eq]
  by_cases same : t.sourceAfter f = t.source
  · rw [if_pos same, if_pos same]
  · rw [if_neg same, if_neg same]

theorem exec_clockSet {s : State} {num : Byte} {f : List Byte} (h : s.Passes .clockSet num f) :
    exec (.clockSet num f) s =
      .next
        (State.answered { s.heard.beatFirst with time := s.heard.beatFirst.time.set f } .clockSet num f
          (answerOk (s.heard.beatFirst.time.set f).setResults)) :=
  (exec_request _ s .clockSet num f rfl).trans (request_passes s .clockSet num f h)

theorem exec_clockBar {s : State} {num : Byte} {f : List Byte} (h : s.Passes .clockBar num f) :
    exec (.clockBar num f) s =
      .next
        (State.answered { s.heard.beatFirst with time := { s.heard.beatFirst.time with barRestart := true } } .clockBar
          num f (answerOk (byteOf s.heard.beatFirst.time.beatInBar :: be16 s.heard.beatFirst.time.barNumber))) :=
  (exec_request _ s .clockBar num f rfl).trans (request_passes s .clockBar num f h)

/-- Settles O39: the owner acts on the time base after the edge and the loss, which leave the source alone. -/
theorem clockIsSet : Obligations.ClockIsSet := by
  refine ⟨fun s num f h => ?set, fun s num f h => ?bar⟩
  case set =>
    intro flags source edge s1 kept t
    have first : s.heard.beatFirst = s1 := s.heard.beatFirst_eq
    have inForce : s1.time.source = s.time.source := first ▸ s.heard.beatFirst_source
    have after : s1.time.sourceAfter f = source := by
      rw [TimeBase.sourceAfter, inForce]
      rfl
    have stored : s1.time.lengthsSet f = kept := s1.time.lengthsSet_eq f
    have set : s1.time.set f = t := by
      rw [TimeBase.set_eq_of_source, after, inForce, stored, TimeBase.changeSource_eq]
    rw [exec_clockSet h, first, set]
    rfl
  case bar =>
    rw [exec_clockBar h, State.beatFirst_eq]
    rfl

end Sys2Proof.Machine
end

section
/-! The advance of the tick counter, block by block (R105, R115, R119, R136, R143, R159, R167). -/

namespace Sys2Proof.Machine

/-! ### Qualification (R115, R143) -/

/-- A sample changes the qualified level: it and the sample before it both differ from the level (R115). -/
def Qualifier.changes (q : Qualifier) (sample : Bool) : Bool :=
  sample != q.level && q.last != q.level

theorem Qualifier.take_eq (q : Qualifier) (sample : Bool) :
    q.take sample =
      ({ level := if q.changes sample then sample else q.level, last := sample },
        if q.changes sample then some sample else none) := by
  unfold Qualifier.take Qualifier.changes
  split <;> rfl

theorem TriggerLine.advance_eq (l : TriggerLine) (sample : Bool) :
    l.advance sample =
      { qualifier := { level := if l.qualifier.changes sample then sample else l.qualifier.level, last := sample }
        edge := if l.qualifier.changes sample then some sample else none } := by
  rw [TriggerLine.advance, Qualifier.take_eq]

/-! ### The time base (R111, R115, R119) -/

section
variable (t : TimeBase) (line : Bool)

/-- A rising SYNC edge under source EXTERNAL asks for its beat, and the interval count stands still. -/
theorem TimeBase.advance_of_sync (h : (t.syncLine.take line).2 = some true ∧ t.source = .external) :
    t.advance line = { t with syncLine := (t.syncLine.take line).1, beatAsk := some .sync } :=
  if_pos h

theorem TimeBase.advance_of_not_sync (h : ¬((t.syncLine.take line).2 = some true ∧ t.source = .external)) :
    t.advance line =
      { t with
        syncLine := (t.syncLine.take line).1
        interval := t.interval + 1
        beatAsk := if t.sync ≠ .locked ∧ t.effectiveBeat ≤ t.interval + 1 then some .internal else none } :=
  if_neg h

end

/-! ### The voices and the streams (R37, R71, R74, R136) -/

theorem Voice.advance_eq (r : Voice) :
    r.advance =
      if r.current = none then r
      else
        { r with
          env := r.env.advance r.releaseMode
          player :=
            if r.state = .active then
              r.player.map fun p =>
                { p with stepTicks := p.stepTicks.map (· - 1), gateTicks := p.gateTicks.map (· - 1) }
            else r.player } := by
  unfold Voice.advance
  cases r.current <;> rfl

theorem State.advance_voice (s : State) (lines : Lines) (v : VoiceId) :
    (s.advance lines).voice v = (s.voice v).advance := by
  simp [State.advance, Allocator.advance]

theorem State.advance_stream (s : State) (lines : Lines) (i : StreamSlotId) :
    (s.advance lines).stream i = (s.stream i).map OpenStream.advance := by
  simp [State.advance, StreamUnit.advance]

/-! ### The mixer (R100, R101) -/

/-- A muted master factor falls, by a soft mute or by MUTEN low (R101). -/
theorem Mixer.advance_masterFactor_of_muted {m : Mixer} {muten : Bool} (h : m.softMute = true ∨ muten = false)
    (target : Nat) : (m.advance target muten).masterFactor = m.masterFactor - 1 := by
  have muted : (m.softMute || !muten) = true := by simpa using h
  exact if_pos muted

theorem Mixer.advance_masterFactor_of_not_muted {m : Mixer} {muten : Bool} (h : ¬(m.softMute = true ∨ muten = false))
    (target : Nat) :
    (m.advance target muten).masterFactor =
      if m.masterFactor < m.masterVolume then m.masterFactor + 1
      else if m.masterVolume < m.masterFactor then m.masterFactor - 1
      else m.masterFactor := by
  have sounding : ¬(m.softMute || !muten) = true := by simpa using h
  exact if_neg sounding

/-! ### The advance after what is outstanding (log entry 3) -/

theorem State.settle_succ (n : Nat) (s : State) :
    State.settle (n + 1) s =
      match s.outstanding with
      | some e => State.settle n (s.carry e).chooseFrame
      | none => s := rfl

/-- With no event outstanding there is nothing to complete. -/
theorem State.settle_of_none {s : State} (h : s.outstanding = none) (n : Nat) : s.settle n = s := by
  cases n with
  | zero => rfl
  | succ n => rw [State.settle_succ, h]

theorem exec_tickAdvance {s : State} (hr : s.inReset = false) (lines : Lines) :
    exec (.tickAdvance lines) s = .next (State.chooseFrame ((State.settle 4096 s).advance lines)) := by
  have run : exec (.tickAdvance lines) s = s.act fun t => t.tick lines := rfl
  rw [run, State.act, hr]
  rfl

/-- Settles O45: the advance of each block, at a part with nothing to complete first. -/
theorem tickAdvances : Obligations.TickAdvances := by
  refine ⟨fun s lines hr => exec_tickAdvance hr lines, State.settle_succ, fun s lines hr still => ?_⟩
  intro changes taken edge sync m muted
  have line (q : Qualifier) (sample : Bool) : q.take sample = (taken q sample, edge q sample) := q.take_eq sample
  refine ⟨s.advance lines, ?run, fun rising => ?sync, fun quiet => ?interval, ?triggers,
    ⟨rfl, rfl, fun h => Mixer.advance_masterFactor_of_muted h _, fun h => Mixer.advance_masterFactor_of_not_muted h _⟩,
    fun v => ?voice, s.advance_stream lines, rfl, rfl, rfl, rfl, rfl, rfl, rfl, rfl, rfl, rfl⟩
  case run => rw [exec_tickAdvance hr, State.settle_of_none still]
  case sync =>
    refine (TimeBase.advance_of_sync s.time.count lines.sync ?_).trans ?_
    · rw [line]
      exact rising
    · rw [line]
      rfl
  case interval =>
    refine (TimeBase.advance_of_not_sync s.time.count lines.sync ?_).trans ?_
    · rw [line]
      exact quiet
    · rw [line]
      rfl
  case triggers =>
    have trigger (l : TriggerLine) (sample : Bool) :
        l.advance sample = { qualifier := taken l.qualifier sample, edge := edge l.qualifier sample } :=
      l.advance_eq sample
    rw [← trigger, ← trigger]
    rfl
  case voice =>
    rw [State.advance_voice, Voice.advance_eq]
    rfl

end Sys2Proof.Machine
end

section
/-! The stream pool: a block is free, or in the filled list of one open stream (R123, R124). Each update of a slot and of
the free list keeps it so, so every step does. -/

namespace Sys2Proof.Machine

/-! ### What a freed block holds (R124) -/

theorem foldl_set_none_getElem (bs : List BlockId) (m : Vector (Option Block) 32) (b : BlockId) :
    (bs.foldl (fun m (b : BlockId) => m.set b none) m)[b] = if b ∈ bs then none else m[b] := by
  induction bs generalizing m with
  | nil => rfl
  | cons a bs ih =>
    rw [List.foldl_cons, ih]
    by_cases here : b ∈ bs
    · simp [here]
    · by_cases first : b = a
      · simp [first]
      · have apart : a.val ≠ b.val := fun e => first (Fin.ext e.symm)
        simp [here, first, apart]

/-- A freed block holds no data, and the others hold what they held (R124). -/
theorem StreamUnit.free_blocks (u : StreamUnit) (bs : List BlockId) (b : BlockId) :
    (u.free bs).blocks[b] = if b ∈ bs then none else u.blocks[b] :=
  foldl_set_none_getElem bs u.blocks b

/-! ### The pool from one slot (R123, R124) -/

/-- A filled block holds 1 to 128 bytes (R124). -/
def Filled (blocks : Vector (Option Block) 32) (b : BlockId) : Prop :=
  ∃ d, blocks[b] = some d ∧ 0 < d.data.length ∧ d.data.length ≤ 128

/-- The pool is sound, seen from one slot and the other. -/
structure PoolOk (free : List BlockId) (blocks : Vector (Option Block) 32) (slot other : Option OpenStream) : Prop where
  perm : (free ++ (filledOf slot ++ filledOf other)).Perm allBlocks
  empty : ∀ b ∈ free, blocks[b] = none
  here : ∀ b ∈ filledOf slot, Filled blocks b
  there : ∀ b ∈ filledOf other, Filled blocks b
  ids : ∀ t o, slot = some t → other = some o → t.id ≠ o.id

theorem PoolOk.symm {free : List BlockId} {blocks : Vector (Option Block) 32} {slot other : Option OpenStream}
    (h : PoolOk free blocks slot other) : PoolOk free blocks other slot where
  perm := (List.perm_append_comm.append_left free).trans h.perm
  empty := h.empty
  here := h.there
  there := h.here
  ids t o ht ho := (h.ids o t ho ht).symm

theorem StreamUnit.slots_toList (u : StreamUnit) :
    u.slots.toList = [u.slots[(0 : StreamSlotId)], u.slots[(1 : StreamSlotId)]] :=
  List.ext_getElem (by simp) fun i hi _ => by
    have : i < 2 := by simpa using hi
    interval_cases i <;> simp

theorem StreamUnit.ok_iff_first (u : StreamUnit) :
    u.Ok ↔ PoolOk u.freeBlocks u.blocks u.slots[(0 : StreamSlotId)] u.slots[(1 : StreamSlotId)] := by
  simp only [StreamUnit.Ok, u.slots_toList, List.flatMap_cons, List.flatMap_nil, List.append_nil, List.forall_mem_cons,
    List.not_mem_nil, false_imp_iff, implies_true, and_true]
  exact ⟨fun ⟨perm, empty, ⟨here, there⟩, ids⟩ => ⟨perm, empty, here, there, ids⟩,
    fun ⟨perm, empty, here, there, ids⟩ => ⟨perm, empty, ⟨here, there⟩, ids⟩⟩

/-- The slot that is not this one (R123). -/
def otherSlot (i : StreamSlotId) : StreamSlotId := i.rev

theorem StreamUnit.ok_iff (u : StreamUnit) (i : StreamSlotId) :
    u.Ok ↔ PoolOk u.freeBlocks u.blocks u.slots[i] u.slots[otherSlot i] := by
  rw [u.ok_iff_first]
  fin_cases i
  · exact .rfl
  · exact ⟨PoolOk.symm, PoolOk.symm⟩

theorem otherSlot_ne (i : StreamSlotId) : i.val ≠ (otherSlot i).val := by
  revert i
  decide

/-- A slot written beside the other one. -/
theorem StreamUnit.ok_of_write {u u' : StreamUnit} {i : StreamSlotId} {slot : Option OpenStream}
    (hs : u'.slots = u.slots.set i slot) (h : PoolOk u'.freeBlocks u'.blocks slot u.slots[otherSlot i]) : u'.Ok := by
  rw [u'.ok_iff i, hs]
  simpa [Vector.getElem_set, otherSlot_ne i] using h

/-! ### What the updates make of the pool (R126, R128, R133, R138) -/

section
variable {free : List BlockId} {blocks : Vector (Option Block) 32} {slot slot' other : Option OpenStream}

/-- No block is named twice (R124). -/
theorem PoolOk.nodup (h : PoolOk free blocks slot other) : (free ++ (filledOf slot ++ filledOf other)).Nodup :=
  h.perm.symm.nodup (List.nodup_finRange 32)

/-- A slot's blocks are not the other slot's. -/
theorem PoolOk.apart (h : PoolOk free blocks slot other) {b : BlockId} (hb : b ∈ filledOf slot) : b ∉ filledOf other := by
  obtain ⟨-, held, -⟩ := List.nodup_append.mp h.nodup
  obtain ⟨-, -, slots⟩ := List.nodup_append.mp held
  exact fun k => slots b hb b k rfl

/-- A written slot has the id of the stream it replaces, if it holds one. -/
def KeepsId (slot slot' : Option OpenStream) : Prop :=
  ∀ t', slot' = some t' → ∃ t, slot = some t ∧ t.id = t'.id

theorem PoolOk.ids_of_keepsId (h : PoolOk free blocks slot other) (hi : KeepsId slot slot') (t o : OpenStream)
    (ht : slot' = some t) (ho : other = some o) : t.id ≠ o.id := by
  obtain ⟨x, hx, same⟩ := hi t ht
  exact same ▸ h.ids x o hx ho

/-- The head blocks of a slot go to the tail of the free list (R133, R138). -/
theorem PoolOk.release (h : PoolOk free blocks slot other) {blocks' : Vector (Option Block) 32} {bs : List BlockId}
    (hf : filledOf slot = bs ++ filledOf slot') (hi : KeepsId slot slot')
    (hb : ∀ b : BlockId, blocks'[b] = if b ∈ bs then none else blocks[b]) : PoolOk (free ++ bs) blocks' slot' other := by
  obtain ⟨-, held, -⟩ := List.nodup_append.mp h.nodup
  obtain ⟨once, -, -⟩ := List.nodup_append.mp held
  rw [hf] at once
  have kept : ∀ b ∉ bs, Filled blocks b → Filled blocks' b := by
    intro b hn
    unfold Filled
    rw [hb, if_neg hn]
    exact id
  refine ⟨?_, fun b k => ?_, fun b k => ?_, fun b k => ?_, h.ids_of_keepsId hi⟩
  · have perm := h.perm
    rw [hf] at perm
    simpa only [List.append_assoc] using perm
  · rw [hb]
    split
    · rfl
    · rename_i hn
      exact h.empty b ((List.mem_append.mp k).resolve_right hn)
  · refine kept b (fun hn => ?_) (h.here b (hf ▸ List.mem_append_right _ k))
    exact (List.nodup_append.mp once).2.2 b hn b k rfl
  · refine kept b (fun hn => ?_) (h.there b k)
    exact h.apart (hf ▸ List.mem_append_left _ hn) k

/-- A slot written with the same filled list. -/
theorem PoolOk.rewrite (h : PoolOk free blocks slot other) (hf : filledOf slot' = filledOf slot)
    (hi : KeepsId slot slot') : PoolOk free blocks slot' other where
  perm := hf ▸ h.perm
  empty := h.empty
  here := hf ▸ h.here
  there := h.there
  ids := h.ids_of_keepsId hi

theorem filledOf_map {f : OpenStream → OpenStream} (hf : ∀ t, (f t).filled = t.filled) (slot : Option OpenStream) :
    filledOf (slot.map f) = filledOf slot := by
  cases slot with
  | none => rfl
  | some t => exact hf t

/-- A slot whose stream, if it holds one, is changed outside its filled list and its id. -/
theorem PoolOk.map (h : PoolOk free blocks slot other) {f : OpenStream → OpenStream}
    (hf : ∀ t, (f t).filled = t.filled ∧ (f t).id = t.id) : PoolOk free blocks (slot.map f) other := by
  refine h.rewrite (filledOf_map (fun t => (hf t).1) slot) fun t' ht' => ?_
  obtain ⟨t, ht, rfl⟩ := Option.map_eq_some_iff.mp ht'
  exact ⟨t, ht, (hf t).2.symm⟩

/-- The head of the free list takes data and joins the tail of a stream's filled list (R128). -/
theorem PoolOk.stock {b : BlockId} {rest : List BlockId} {t t' : OpenStream} {d : Block}
    (h : PoolOk (b :: rest) blocks (some t) other) (hf : t'.filled = t.filled ++ [b]) (hi : t'.id = t.id)
    (low : 0 < d.data.length) (high : d.data.length ≤ 128) :
    PoolOk rest (blocks.set b (some d)) (some t') other := by
  have written : ∀ a : BlockId, (blocks.set b (some d))[a] = if a = b then some d else blocks[a] := by
    intro a
    simp [Vector.getElem_set, Fin.ext_iff, eq_comm]
  have stored : Filled (blocks.set b (some d)) b := ⟨d, (written b).trans (if_pos rfl), low, high⟩
  have kept : ∀ a, Filled blocks a → Filled (blocks.set b (some d)) a := by
    intro a ha
    by_cases e : a = b
    · exact e ▸ stored
    · unfold Filled
      rw [written, if_neg e]
      exact ha
  obtain ⟨notFree, -⟩ := List.nodup_cons.mp h.nodup
  have filled : filledOf (some t') = t.filled ++ [b] := hf
  refine ⟨?_, fun a k => ?_, fun a k => ?_, fun a k => kept a (h.there a k), h.ids_of_keepsId fun x hx => ?_⟩
  · rw [filled]
    refine List.Perm.trans ?_ h.perm
    rw [List.append_assoc, List.singleton_append]
    exact (List.perm_middle.append_left rest).trans List.perm_middle
  · rw [written, if_neg fun e => ?_]
    · exact h.empty a (List.mem_cons_of_mem b k)
    · exact notFree (List.mem_append_left _ (e ▸ k))
  · rw [filled] at k
    obtain k | k := List.mem_append.mp k
    · exact kept a (h.here a k)
    · exact List.mem_singleton.mp k ▸ stored
  · obtain rfl := Option.some.inj hx
    exact ⟨t, rfl, hi.symm⟩

/-- A stream opened in a CLOSED slot, under an id that is not open, with no block (R126). -/
theorem PoolOk.opened (h : PoolOk free blocks none other) {t : OpenStream} (hf : t.filled = [])
    (hi : ∀ o, other = some o → t.id ≠ o.id) : PoolOk free blocks (some t) other where
  perm := by
    have filled : filledOf (some t) = filledOf none := hf
    exact filled ▸ h.perm
  empty := h.empty
  here b k := by
    have filled : filledOf (some t) = [] := hf
    rw [filled] at k
    cases k
  there := h.there
  ids x o hx ho := Option.some.inj hx ▸ hi o ho

end

/-! ### The slot of an open id, and a CLOSED slot (R123, R126) -/

theorem mem_allStreamSlots (i : StreamSlotId) : i ∈ allStreamSlots := by revert i; decide

theorem State.openSlot_none {s : State} {id : Byte} :
    s.openSlot id = none ↔ ∀ i t, s.stream i = some t → t.id ≠ id := by
  rw [State.openSlot, List.find?_eq_none]
  constructor
  · intro h i t ht same
    exact h i (mem_allStreamSlots i) (by simp [ht, same])
  · intro h i _ found
    obtain ⟨t, ht, same⟩ := (Option.any_eq_true _ _).mp found
    exact h i t ht (beq_iff_eq.mp same)

theorem State.closedSlot_some {s : State} {i : StreamSlotId} (h : s.closedSlot = some i) : s.stream i = none :=
  Option.isNone_iff_eq_none.mp (List.find?_some (p := fun i => (s.stream i).isNone) h)

/-! ### Every step (O57) -/

theorem ownMapWrite_streams (f : List Byte) (s : State) : (ownMapWrite f s).1.streams = s.streams := by
  unfold ownMapWrite
  dsimp only
  split
  · rfl
  · split <;> rfl

theorem ownOutputSet_streams (f : List Byte) (s : State) : (ownOutputSet f s).1.streams = s.streams := by
  rw [ownOutputSet_eq]

section
variable {s : State} (h : s.streams.Ok)
include h

theorem pool_at (i : StreamSlotId) : PoolOk s.streams.freeBlocks s.streams.blocks (s.stream i) (s.stream (otherSlot i)) :=
  (s.streams.ok_iff i).mp h

theorem mapSlot_ok (i : StreamSlotId) {f : OpenStream → OpenStream}
    (hf : ∀ t, (f t).filled = t.filled ∧ (f t).id = t.id) :
    (s.putStream i ((s.stream i).map f)).streams.Ok :=
  StreamUnit.ok_of_write rfl ((pool_at h i).map hf)

theorem useHead_ok {i : StreamSlotId} {t : OpenStream} {b : BlockId} {rest : List BlockId} (ht : s.stream i = some t)
    (hb : t.filled = b :: rest) :
    ({ s with streams := s.streams.free [b] }.putStream i
      (some { t with filled := rest, read := some { index := 0, holdCount := 0 } })).streams.Ok := by
  refine StreamUnit.ok_of_write rfl ((pool_at h i).release ?_ (fun x hx => ?_) (s.streams.free_blocks [b]))
  · rw [ht]
    exact hb
  · obtain rfl := Option.some.inj hx
    exact ⟨t, ht, rfl⟩

theorem closeStream_ok (i : StreamSlotId) : (s.closeStream i).streams.Ok := by
  unfold State.closeStream
  split
  · rename_i t ht
    rw [State.credit_streams]
    refine StreamUnit.ok_of_write rfl ((pool_at h i).release (bs := t.filled) ?_ (fun x hx => by cases hx)
      (s.streams.free_blocks t.filled))
    rw [ht]
    exact (List.append_nil _).symm
  · exact h

theorem ownOpen_ok (f : List Byte) : (ownOpen f s).1.streams.Ok := by
  unfold ownOpen
  dsimp only
  split
  · exact h
  rename_i fresh
  have fresh := State.openSlot_none.mp (Option.not_isSome_iff_eq_none.mp fresh)
  split
  · exact h
  · rename_i i closed
    have pool := pool_at h i
    rw [State.closedSlot_some closed] at pool
    exact StreamUnit.ok_of_write rfl (pool.opened rfl fun o ho => (fresh (otherSlot i) o ho).symm)

theorem stock_ok {i : StreamSlotId} {t : OpenStream} {d : List Byte} {b : BlockId} {rest : List BlockId}
    (ht : s.stream i = some t) (hb : s.streams.freeBlocks = b :: rest) (low : 0 < d.length) (high : d.length ≤ 128) :
    (s.stock i t d b rest).streams.Ok := by
  have pool := pool_at h i
  rw [hb, ht] at pool
  exact StreamUnit.ok_of_write (u := s.streams) rfl (pool.stock rfl rfl low high)

/-- An advance moves the starve timers alone (R136). -/
theorem advanceStreams_ok : s.streams.advance.Ok := by
  have kept : ∀ t : OpenStream, t.advance.filled = t.filled ∧ t.advance.id = t.id := fun _ => ⟨rfl, rfl⟩
  rw [StreamUnit.ok_iff _ 0]
  simpa [StreamUnit.advance] using ((pool_at h 0).map kept).symm.map kept |>.symm

end

/-- Each update of a command keeps the pool sound: most leave it alone, and those of the stream unit keep it by the lemmas
above. -/
theorem kept_blocks : Kept fun s => s.streams.Ok where
  offer _ _ h := h
  sched _ _ h := h
  passes _ _ h := h
  putVoice s v r h := by rw [State.putVoice_streams]; exact h
  refUp _ _ h := h
  refDown _ _ h := h
  stream _ i _ hf h := mapSlot_ok h i hf
  useHead _ _ _ _ _ ht hb h := useHead_ok h ht hb
  closeStream _ i h := closeStream_ok h i
  triggers _ _ h := h
  chooseFrame s h := by rw [State.chooseFrame_streams]; exact h
  replyLeft _ h := h
  reportSent s h := by rw [State.reportSent_streams]; exact h
  hold _ _ h := h
  countDiscard _ h := h
  gapZero _ h := h
  heard _ h := h
  overrun _ h := h
  again _ _ _ _ _ _ _ h := h
  reply _ _ _ _ _ _ h := h
  stalled _ h := h
  goBack _ _ h := h
  internalEdge _ _ h := h
  syncEdge _ _ h := h
  move _ h := h
  loss _ _ h := h
  duckMove _ h := h
  output _ _ h := h
  clockVoices _ h := h
  advanced _ _ h := advanceStreams_ok h
  powerOn _ _ := StreamUnit.afterReset_ok
  resetKept _ _ _ _ := StreamUnit.afterReset_ok
  softAtReplyEnd _ _ := StreamUnit.afterReset_ok
  sampleStraps _ _ h := h
  takeReset _ h := h
  pending _ _ h := h
  linkOpen _ _ _ h := h
  select _ _ h := h
  ack f s h := by obtain ⟨x, e⟩ := ownAck_writes f s; rw [e]; exact h
  begin f s h := by obtain ⟨x, e⟩ := ownBegin_writes f s; rw [e]; exact h
  add f s h := by obtain ⟨x, e⟩ := ownAdd_writes f s; rw [e]; exact h
  finish f s h := by obtain ⟨x, e⟩ := ownEnd_writes f s; rw [e]; exact h
  drop f s h := by obtain ⟨x, e⟩ := ownDrop_writes f s; rw [e]; exact h
  mapWrite f s h := by rw [ownMapWrite_streams]; exact h
  mapRestore _ _ h := by unfold ownMapRestore; exact h
  outputSet f s _ h := by rw [ownOutputSet_streams]; exact h
  timeSet _ _ _ _ h := h
  barRestart _ h := h
  open_ f _ _ h := ownOpen_ok h f
  stock _ _ _ _ _ _ ht hb low high h := stock_ok h ht hb low high

/-- Settles O57: every update keeps the pool, so every step does. -/
theorem stepsKeepBlocks : Obligations.StepsKeepBlocks :=
  fun s t h e => kept_blocks.step s t e h

end Sys2Proof.Machine
end

section
/-! STREAM.DATA: its outcomes in order, and what a stored block makes of its stream (R127, R128, R136). -/

namespace Sys2Proof.Machine

/-! ### The outcomes of STREAM.DATA (R127) -/

/-- STREAM.DATA acts on the part with a starve limit that is due taken first (R140). -/
theorem exec_streamData {s : State} {num : Byte} {f : List Byte} (h : s.Passes .streamData num f) :
    exec (.streamData num f) s =
      .next
        (State.answered (ownData f (s.heard.limitFirst (u8 f 0))).1 .streamData num f
          (ownData f (s.heard.limitFirst (u8 f 0))).2) :=
  (exec_request _ s .streamData num f rfl).trans (request_passes s .streamData num f h)

section
variable {f : List Byte} {s : State} {i : StreamSlotId} {t : OpenStream}

theorem ownData_closed (h : s.openSlot (u8 f 0) = none) :
    ownData f s = (s, { status := .streamState, results := s.dataResults 0xFF#8 none }) := by
  simp only [ownData, h]

variable (hi : s.openSlot (u8 f 0) = some i) (ht : s.stream i = some t)
include hi ht

theorem ownData_last (hl : t.last = true) :
    ownData f s = (s, { status := .streamState, results := s.dataResults 0xFF#8 (some t) }) := by
  simp only [ownData, hi, ht, hl, if_true]

theorem ownData_ringFull (hl : t.last = false) (hs : u16 f 1 = t.expected) (hf : s.streams.freeBlocks = []) :
    ownData f s = (s, { status := .ringFull, results := s.dataResults 0xFF#8 (some t) }) := by
  have full : s.freeCount = 0 := congrArg List.length hf
  simp [ownData, hi, ht, hl, hs, full]

theorem ownData_stored (hl : t.last = false) (hs : u16 f 1 = t.expected) {b : BlockId} {rest : List BlockId}
    (hb : s.streams.freeBlocks = b :: rest) {s' : State} (h' : s.storeBlock i t (f.drop 3) = s') {t' : OpenStream}
    (ht' : s'.stream i = some t') (expected : t'.expected = t.expected + 1) (filled : t'.filled = t.filled ++ [b])
    (free : s'.streams.freeBlocks = rest) :
    ownData f s =
      (s',
        answerOk
          (0 :: be16 (t.expected + 1) ++
            [streamCode (some t'), byteOf (t.filled.length + 1), byteOf (s.streams.freeBlocks.length - 1)])) := by
  have room : s.freeCount ≠ 0 := by simp [State.freeCount, hb]
  simp only [ownData, hi, ht, hl, hs, room, h', ht', Bool.false_eq_true, if_true, if_false]
  simp [State.dataResults, State.freeByte, State.freeCount, hb, free, expected, filled]

theorem ownData_repeated (hl : t.last = false) (hs : u16 f 1 ≠ t.expected) (low : 1 ≤ (t.expected - u16 f 1).toNat)
    (high : (t.expected - u16 f 1).toNat ≤ 32) : ownData f s = (s, answerOk (s.dataResults 1 (some t))) := by
  have near : within 1 32 (t.expected - u16 f 1).toNat = true := by simpa [within_eq] using ⟨low, high⟩
  simp only [ownData, hi, ht, hl, hs, near, Bool.false_eq_true, if_true, if_false]

theorem ownData_outOfOrder (hl : t.last = false) (far : 32 < (t.expected - u16 f 1).toNat) :
    ownData f s = (s, { status := .outOfOrder, results := s.dataResults 0xFF#8 (some t) }) := by
  have apart : u16 f 1 ≠ t.expected := fun e => by simp [e] at far
  have near : within 1 32 (t.expected - u16 f 1).toNat = false := by
    rw [within_eq, decide_eq_false_iff_not]
    omega
  simp only [ownData, hi, ht, hl, apart, near, Bool.false_eq_true, if_false]

end

/-! ### A block stored (R128, R136) -/

/-- A block taken from the head of the free list holds the data, and the slot holds this stream (R128). -/
def State.putBlock (s : State) (i : StreamSlotId) (t : OpenStream) (b : BlockId) (d : Block) (rest : List BlockId) :
    State :=
  { s with
    streams :=
      { slots := s.streams.slots.set i (some t)
        blocks := s.streams.blocks.set b (some d)
        freeBlocks := rest } }

theorem State.putBlock_stream (s : State) (i : StreamSlotId) (t : OpenStream) (b : BlockId) (d : Block)
    (rest : List BlockId) : (s.putBlock i t b d rest).stream i = some t := by
  simp [State.putBlock, State.stream]

/-- The stream resumes on a fresh position, its starve timer absent (R136). -/
def OpenStream.resumed (t : OpenStream) : OpenStream :=
  { t with state := .playing, starve := none, read := some { index := 0, holdCount := 0 } }

theorem State.canResume_iff (s : State) (t : OpenStream) :
    s.canResume t = true ↔ t.state = .starved ∧ t.policy = .pause ∧ s.boundPlaying t = true := by
  simp [State.canResume, and_assoc]

theorem State.resume_filled (s : State) (i : StreamSlotId) {t : OpenStream} (h : t.filled ≠ []) :
    s.resume i t = (s.putStream i (some t.resumed)).offer (.streamResumed t.id) :=
  if_neg h

theorem State.resume_empty (s : State) (i : StreamSlotId) {t : OpenStream} (h : t.filled = []) :
    s.resume i t =
      ((s.putStream i (some t.resumed)).offer (.streamResumed t.id)).enterEnding streamVoice .finished :=
  if_pos h

/-- A stored block makes a FILLING stream that is full enough READY, which asks for a pass, resumes a starved one that can
resume, and leaves the state of any other (R128). -/
theorem State.storeBlock_eq {s : State} {b : BlockId} {rest : List BlockId} (hb : s.streams.freeBlocks = b :: rest)
    (i : StreamSlotId) (t : OpenStream) (data : List Byte) :
    s.storeBlock i t data =
      let put (u : OpenStream) : State := s.putBlock i u b { sequence := t.expected, data := data } rest
      if t.state = .filling ∧ t.prefill ≤ t.filled.length + 1 then (put { t.stored b with state := .ready }).askPass
      else if s.canResume t = true ∧ t.prefill ≤ t.filled.length + 1 then
        (put (t.stored b).resumed).offer (.streamResumed t.id)
      else put (t.stored b) := by
  have longer : (t.stored b).filled.length = t.filled.length + 1 := by simp [OpenStream.stored]
  have holds : (t.stored b).filled ≠ [] := by simp [OpenStream.stored]
  simp only [State.storeBlock, hb, longer, State.resume_filled _ i holds]
  rfl

/-- Settles O40: the outcomes of R127 in their order, and the stored block by `State.storeBlock_eq`. -/
theorem streamDataIsTaken : Obligations.StreamDataIsTaken := by
  intro s0 num f h s seq free answers
  have first : s0.heard.limitFirst (u8 f 0) = s := rfl
  have taken {t : State} {st : Status} {results : List Byte}
      (own : ownData f s = (t, { status := st, results := results })) : answers t st results := by
    change exec _ _ = _
    rw [exec_streamData h, first, own]
  refine ⟨fun closed => taken (ownData_closed closed), fun i t hi ht => ?_⟩
  intro unstored
  refine ⟨fun last => taken (ownData_last hi ht last),
    fun open_ due noRoom => taken (ownData_ringFull hi ht open_ due noRoom),
    fun open_ other low high => taken (ownData_repeated hi ht open_ other low high),
    fun open_ far => taken (ownData_outOfOrder hi ht open_ far), fun b rest open_ due hb => ?_⟩
  intro t1 put stored full resumes
  have stores := State.storeBlock_eq hb i t (f.drop 3)
  rw [← due] at stores
  have slot (u : OpenStream) : (put u).stream i = some u := s.putBlock_stream i u b _ rest
  refine ⟨fun filling fills => ?ready, fun ⟨starved, pause, playing, fills⟩ => ?resumed, fun unfilled waits => ?kept⟩
  case ready =>
    have eq := stores.trans (if_pos ⟨filling, fills⟩)
    exact taken (ownData_stored hi ht open_ due hb eq (slot _) rfl rfl rfl)
  case resumed =>
    have unfilled : t.state ≠ .filling := by simp [starved]
    have can := (s.canResume_iff t).mpr ⟨starved, pause, playing⟩
    have eq := (stores.trans (if_neg fun k => unfilled k.1)).trans (if_pos ⟨can, fills⟩)
    exact taken (ownData_stored hi ht open_ due hb eq (slot _) rfl rfl rfl)
  case kept =>
    have cannot : ¬(s.canResume t = true ∧ t.prefill ≤ t.filled.length + 1) := by
      rintro ⟨can, fills⟩
      obtain ⟨starved, pause, playing⟩ := (s.canResume_iff t).mp can
      exact waits ⟨starved, pause, playing, fills⟩
    have eq := (stores.trans (if_neg unfilled)).trans (if_neg cannot)
    have own := ownData_stored hi ht open_ due hb eq (slot _) rfl rfl rfl
    exact taken own

end Sys2Proof.Machine
end

section
/-! STREAM.OPEN, STREAM.END and STREAM.ABORT, and the close of a stream (R126, R129, R134, R138, R139). -/

namespace Sys2Proof.Machine

/-! ### STREAM.OPEN (R126) -/

theorem exec_streamOpen {s : State} {num : Byte} {f : List Byte} (h : s.Passes .streamOpen num f) :
    exec (.streamOpen num f) s =
      .next (State.answered (ownOpen f s.heard).1 .streamOpen num f (ownOpen f s.heard).2) :=
  (exec_request _ s .streamOpen num f rfl).trans (request_passes s .streamOpen num f h)

/-- A CLOSED slot is found where there is one, and it is the lowest-numbered (R126). -/
theorem State.closedSlot_none {s : State} : s.closedSlot = none ↔ ∀ i, s.stream i ≠ none := by
  rw [State.closedSlot, List.find?_eq_none]
  exact ⟨fun h i => by simpa using h i (mem_allStreamSlots i), fun h i _ => by simpa using h i⟩

theorem State.closedSlot_eq {s : State} {i : StreamSlotId} (h : s.stream i = none)
    (lowest : ∀ j, j < i → s.stream j ≠ none) : s.closedSlot = some i := by
  let closed (j : StreamSlotId) : Bool := (s.stream j).isNone
  have found : closed i = true := Option.isNone_iff_eq_none.mpr h
  obtain rfl | rfl := (Fin.exists_fin_two (p := (i = ·))).mp ⟨i, rfl⟩
  · exact List.find?_cons_of_pos (p := closed) found
  · have first : ¬closed 0 = true := fun k => lowest 0 (by decide) (Option.isNone_iff_eq_none.mp k)
    exact (List.find?_cons_of_neg (p := closed) first).trans (List.find?_cons_of_pos (p := closed) found)

section
variable {f : List Byte} {s : State}

/-- The answer to a STREAM.OPEN that is refused (R126). -/
def State.openRefusal (s : State) : Answer :=
  { status := .streamState, results := [s.freeByte, streamCode (s.stream 0), streamCode (s.stream 1)] }

theorem ownOpen_open (h : s.openSlot (u8 f 0) ≠ none) : ownOpen f s = (s, s.openRefusal) :=
  if_pos (Option.isSome_iff_ne_none.mpr h)

theorem ownOpen_full (h : s.closedSlot = none) : ownOpen f s = (s, s.openRefusal) := by
  simp only [ownOpen, h, State.openRefusal, ite_self]

theorem ownOpen_accepted (h : s.openSlot (u8 f 0) = none) {i : StreamSlotId} (hi : s.closedSlot = some i) :
    ownOpen f s = (s.putStream i (some (OpenStream.opened f)), answerOk [byteOf i.val, s.freeByte]) := by
  simp [ownOpen, h, hi]

theorem exec_streamOpen_refused {num : Byte} (h : s.Passes .streamOpen num f)
    (own : ownOpen f s.heard = (s.heard, s.heard.openRefusal)) :
    exec (.streamOpen num f) s = .next (State.answered s .streamOpen num f s.openRefusal) := by
  rw [exec_streamOpen h, own]
  rfl

end

/-! ### STREAM.END (R129, R136) -/

/-- STREAM.END acts on the part with a starve limit that is due taken first (R140). -/
theorem exec_streamEnd {s : State} {num : Byte} {f : List Byte} (h : s.Passes .streamEnd num f) :
    exec (.streamEnd num f) s =
      .next
        (State.answered (ownStreamEnd f (s.heard.limitFirst (u8 f 0))).1 .streamEnd num f
          (ownStreamEnd f (s.heard.limitFirst (u8 f 0))).2) :=
  (exec_request _ s .streamEnd num f rfl).trans (request_passes s .streamEnd num f h)

section
variable {f : List Byte} {s : State} {i : StreamSlotId} {t : OpenStream}

theorem ownStreamEnd_closed (h : s.openSlot (u8 f 0) = none) :
    ownStreamEnd f s = (s, { status := .streamState, results := [s.freeByte] }) := by
  simp only [ownStreamEnd, h]

theorem ownStreamEnd_last (hi : s.openSlot (u8 f 0) = some i) (ht : s.stream i = some t) (hl : t.last = true) :
    ownStreamEnd f s = (s, { status := .streamState, results := [s.freeByte] }) := by
  simp only [ownStreamEnd, hi, ht, hl, if_true]

/-- The results of a STREAM.END that is accepted (R129). -/
def State.endResults (s : State) (t : Option OpenStream) : List Byte :=
  [streamCode t, byteOf (filledOf t).length, s.freeByte]

theorem ownStreamEnd_accepted (hi : s.openSlot (u8 f 0) = some i) (ht : s.stream i = some t) (hl : t.last = false)
    {s' : State} (h' : s.endData i t = s') : ownStreamEnd f s = (s', answerOk (s'.endResults (s'.stream i))) := by
  simp only [ownStreamEnd, hi, ht, hl, h', Bool.false_eq_true, if_false, State.endResults, filledOf]
  cases s'.stream i <;> rfl

/-- The results while the stream stays open with the blocks it had. -/
theorem ownStreamEnd_running (hi : s.openSlot (u8 f 0) = some i) (ht : s.stream i = some t) (hl : t.last = false)
    {s' : State} (h' : s.endData i t = s') {t' : OpenStream} (ht' : s'.stream i = some t') (hf : t'.filled = t.filled)
    (free : s'.streams.freeBlocks = s.streams.freeBlocks) :
    ownStreamEnd f s = (s', answerOk [streamCode (some t'), byteOf t.filled.length, s.freeByte]) := by
  rw [ownStreamEnd_accepted hi ht hl h', ht', State.endResults, State.freeByte, State.freeCount, free, ← hf]
  rfl

theorem State.endData_filling (h : t.state = .filling) :
    s.endData i t = (s.putStream i (some { t with last := true, state := .ready })).askPass :=
  if_pos h

theorem State.endData_resumes (h : t.state = .starved) (pause : t.policy = .pause) (playing : s.boundPlaying t = true) :
    s.endData i t = s.resume i { t with last := true } := by
  have unfilled : t.state ≠ .filling := by simp [h]
  exact (if_neg unfilled).trans (if_pos ((s.canResume_iff _).mpr ⟨h, pause, playing⟩))

theorem State.endData_kept (unfilled : t.state ≠ .filling)
    (waits : ¬(t.state = .starved ∧ t.policy = .pause ∧ s.boundPlaying t = true)) :
    s.endData i t = s.putStream i (some { t with last := true }) :=
  (if_neg unfilled).trans (if_neg fun can => waits ((s.canResume_iff _).mp can))

end

/-- The stream in this slot, where one is open, holds no block. -/
def State.EmptyAt (i : StreamSlotId) (s : State) : Prop :=
  filledOf (s.stream i) = []

/-- A stream without a block has none to use up, and none is stored but by STREAM.DATA. -/
theorem closed_emptyAt (i : StreamSlotId) : Closed (State.EmptyAt i) where
  offer _ _ h := h
  sched _ _ h := h
  passes _ _ h := h
  putVoice s v r h := by rw [State.EmptyAt, State.stream, State.putVoice_streams]; exact h
  refUp _ _ h := h
  refDown _ _ h := h
  stream s j f hf h := by
    rw [State.EmptyAt, State.putStream_stream]
    split
    · rename_i e
      rw [filledOf_map fun t => (hf t).1, e]
      exact h
    · exact h
  useHead s j t b rest ht hb h := by
    rw [State.EmptyAt, State.putStream_stream]
    split
    · rename_i e
      subst e
      rw [State.EmptyAt, ht] at h
      exact absurd (hb.symm.trans h) (List.cons_ne_nil b rest)
    · exact h
  closeStream s j h := by
    rw [State.EmptyAt, State.closeStream_stream]
    split
    · rfl
    · exact h
  triggers _ _ h := h

/-- The results where the resumed stream held no block, so that its cue ends and may take the stream with it. -/
theorem ownStreamEnd_ended {f : List Byte} {s : State} {i : StreamSlotId} {t : OpenStream}
    (hi : s.openSlot (u8 f 0) = some i) (ht : s.stream i = some t) (hl : t.last = false) {s' : State} (v : VoiceId)
    (reason : EndReason) (h' : s.endData i t = s'.enterEnding v reason) (empty : State.EmptyAt i s') :
    ownStreamEnd f s =
      (s'.enterEnding v reason,
        answerOk [streamCode ((s'.enterEnding v reason).stream i), 0, (s'.enterEnding v reason).freeByte]) := by
  have emptied : filledOf ((s'.enterEnding v reason).stream i) = [] := (closed_emptyAt i).enterEnding s' v reason empty
  rw [ownStreamEnd_accepted hi ht hl h', State.endResults, emptied]
  rfl

/-! ### STREAM.ABORT (R139) -/

theorem exec_streamAbort {s : State} {num : Byte} {f : List Byte} (h : s.Passes .streamAbort num f) :
    exec (.streamAbort num f) s =
      .next (State.answered (ownAbort f s.heard).1 .streamAbort num f (ownAbort f s.heard).2) :=
  (exec_request _ s .streamAbort num f rfl).trans (request_passes s .streamAbort num f h)

section
variable {f : List Byte} {s : State} {i : StreamSlotId} {t : OpenStream}

theorem ownAbort_closed (h : s.openSlot (u8 f 0) = none) :
    ownAbort f s = (s, { status := .streamState, results := [s.freeByte] }) := by
  simp only [ownAbort, h]

theorem ownAbort_open (hi : s.openSlot (u8 f 0) = some i) (ht : s.stream i = some t) :
    ownAbort f s = ((s.abort i t).1, answerOk [(s.abort i t).2, byteOf t.filled.length, (s.abort i t).1.freeByte]) := by
  simp only [ownAbort, hi, ht]

theorem State.abort_unbound (h : t.bound = none) : s.abort i t = (s.closeStream i, 0) := by
  simp only [State.abort, h]

section
variable {tag : Tag} (hb : t.bound = some tag) (hs : s.TagsOk)
include hb hs

theorem State.abort_entry {e : Entry} (h : s.HeldAt tag (.entry e)) :
    s.abort i t = (s.removeEntry tag .aborted, 1) := by
  simp only [State.abort, hb, State.place_of_held (hs.claims_le tag) h]

theorem State.abort_incoming {v : VoiceId} {c : Cue} (h : s.HeldAt tag (.incoming v c)) :
    s.abort i t = (s.removeIncoming v .aborted, 1) := by
  simp only [State.abort, hb, State.place_of_held (hs.claims_le tag) h]

theorem State.abort_current {v : VoiceId} {k : Current} (h : s.HeldAt tag (.current v k)) :
    s.abort i t = (s.endAtOnce v .aborted, 2) := by
  simp only [State.abort, hb, State.place_of_held (hs.claims_le tag) h]

end

end

/-! ### The close of a stream (R134, R138) -/

/-- STREAM_CREDIT is offered where the free count has come to 8 (R134). -/
theorem State.credit_eq (before : Nat) (s : State) :
    State.credit before s =
      { s with
        reports :=
          if before < 8 ∧ 8 ≤ s.freeCount then s.reports.offer (.streamCredit s.freeCount) s.now else s.reports } := by
  unfold State.credit Config.creditMark
  split_ifs <;> rfl

/-- The close of a stream: what it frees and what it offers (R134, R138). -/
theorem State.closeStream_eq {s : State} {i : StreamSlotId} {t : OpenStream} (h : s.stream i = some t) :
    s.closeStream i =
      { s with
        streams := { s.streams.free t.filled with slots := s.streams.slots.set i none }
        reports :=
          if s.freeCount < 8 ∧ 8 ≤ s.freeCount + t.filled.length then
            s.reports.offer (.streamCredit (s.freeCount + t.filled.length)) s.now
          else s.reports } := by
  have freed : (s.streams.freeBlocks ++ t.filled).length = s.freeCount + t.filled.length := List.length_append
  simp only [State.closeStream, h]
  rw [State.credit_eq, ← freed]
  rfl

/-- Settles O41: each request by its outcomes, and the close by what it frees and offers. -/
theorem streamsOpenEndAndClose : Obligations.StreamsOpenEndAndClose := by
  refine ⟨fun s num f h => ?open_, fun s0 num f h => ?end_, fun s num f h placed => ?abort, fun s i t ht => ?close⟩
  case open_ =>
    intro free refused
    refine ⟨fun ⟨i, t, ht, same⟩ => exec_streamOpen_refused h (ownOpen_open fun none_open => ?_),
      fun first second => exec_streamOpen_refused h (ownOpen_full ?_), fun i fresh closed lowest => ?_⟩
    · exact State.openSlot_none.mp none_open i t ht same
    · exact State.closedSlot_none.mpr (Fin.forall_fin_two.mpr ⟨first, second⟩)
    · have lowestClosed : s.heard.closedSlot = some i := State.closedSlot_eq closed lowest
      have notOpen : s.heard.openSlot (u8 f 0) = none := State.openSlot_none.mpr fresh
      rw [exec_streamOpen h, ownOpen_accepted notOpen lowestClosed]
      rfl
  case end_ =>
    intro s free answers
    have first : s0.heard.limitFirst (u8 f 0) = s := rfl
    have taken {t : State} {st : Status} {results : List Byte}
        (own : ownStreamEnd f s = (t, { status := st, results := results })) : answers t st results := by
      change exec _ _ = _
      rw [exec_streamEnd h, first, own]
    refine ⟨fun closed => taken (ownStreamEnd_closed closed), fun i t hi ht => ?_⟩
    intro put resumes
    have slot (u : OpenStream) : (put u).stream i = some u := (s.putStream_stream i i (some u)).trans (if_pos rfl)
    refine ⟨fun last => taken (ownStreamEnd_last hi ht last), fun open_ filling => ?_, fun open_ unfilled waits => ?_,
      fun open_ ⟨starved, pause, playing⟩ => ?_⟩
    · exact taken (ownStreamEnd_running hi ht open_ (State.endData_filling filling) (slot _) rfl rfl)
    · have own := ownStreamEnd_running hi ht open_ (State.endData_kept unfilled waits) (slot _) rfl rfl
      exact taken own
    · intro resumed ended
      have eq := State.endData_resumes (s := s) (i := i) starved pause playing
      refine ⟨fun some_left => ?_, fun none_left => ?_⟩
      · exact taken (ownStreamEnd_running hi ht open_ (eq.trans (s.resume_filled i some_left)) (slot _) rfl rfl)
      · have empty : State.EmptyAt i resumed := (congrArg filledOf (slot _)).trans none_left
        exact taken (ownStreamEnd_ended hi ht open_ 6 .finished (eq.trans (s.resume_empty i none_left)) empty)
  case abort =>
    intro answers
    refine ⟨fun closed => ?_, fun i t hi ht => ?_⟩
    · rw [exec_streamAbort h, ownAbort_closed (s := s.heard) closed]
      rfl
    have taken {t' : State} {outcome : Byte} (abort : s.heard.abort i t = (t', outcome)) :
        answers t' outcome t.filled.length := by
      change exec _ _ = _
      rw [exec_streamAbort h, ownAbort_open (s := s.heard) hi ht, abort]
      rfl
    have tags : s.heard.TagsOk := placed.tags
    refine ⟨fun unbound => taken (State.abort_unbound unbound), fun tag bound => ⟨fun e he same => ?_, fun v =>
      ⟨fun c hc same => ?_, fun k hk same => ?_⟩⟩⟩
    · exact taken (State.abort_entry bound tags (e := e) ⟨he, same⟩)
    · exact taken (State.abort_incoming bound tags (v := v) (c := c) ⟨hc, same⟩)
    · exact taken (State.abort_current bound tags (v := v) (k := k) ⟨hk, same⟩)
  case close =>
    intro before after
    rw [State.closeStream_eq ht]
    exact ⟨rfl, s.streams.free_blocks t.filled⟩

end Sys2Proof.Machine
end

section
/-! The starve limit of a stream, and the use of a block to its end (R133 to R136). -/

namespace Sys2Proof.Machine

/-! ### The starve limit (R136) -/

theorem OpenStream.limitReached_of {t : OpenStream} (starved : t.state = .starved) (limit : t.starve = some 2000) :
    t.limitReached = true := by
  simp [OpenStream.limitReached, starved, limit, Config.starveLimit]

theorem exec_starveLimit {s : State} {i : StreamSlotId} {t : OpenStream} (hr : s.inReset = false) (ht : s.stream i = some t)
    (hl : t.limitReached = true) : exec (.starveLimit i) s = .next (s.starveLimit i).chooseFrame :=
  event_stands s (.starve i) hr (by simp [State.stands, ht, hl])

theorem State.starveLimit_reached {s : State} {i : StreamSlotId} {t : OpenStream} (ht : s.stream i = some t)
    (hl : t.limitReached = true) :
    s.starveLimit i =
      if s.boundPlaying t then (s.putStream i (some { t with starve := none })).enterEnding streamVoice .underrun
      else s.putStream i (some { t with starve := none }) := by
  simp only [State.starveLimit, ht, hl, if_true]
  rfl

/-! ### A block used up (R133 to R135) -/

theorem exec_blockUsedUp {s : State} (hr : s.inReset = false) :
    exec .blockUsedUp s = .next s.finishBlock.chooseFrame := by
  have run : exec .blockUsedUp s = s.act State.finishBlock := rfl
  rw [run, State.act, hr]
  rfl

/-- A cue bound to a stream is PLAYING exactly while voice 6 is ACTIVE with it (R125). -/
theorem State.boundPlaying_of_bound {s : State} {k : Current} {t : OpenStream}
    (hk : (s.voice streamVoice).current = some k) (hb : t.bound = some k.cue.tag) :
    s.boundPlaying t = true ↔ (s.voice streamVoice).state = .active := by
  unfold State.boundPlaying
  rw [hk, hb]
  cases (s.voice streamVoice).state <;> simp

section
variable {s : State} {k : Current} {i : StreamSlotId} {t : OpenStream} {b : BlockId} {rest : List BlockId}

theorem State.usedUpSlot_eq {d : Block} {r : ReadPosition} (hk : (s.voice streamVoice).current = some k)
    (hi : s.boundSlot k.cue.tag = some i) (ht : s.stream i = some t) (playing : t.state = .playing)
    (hf : t.filled = b :: rest) (hd : s.streams.blocks[b] = some d) (hr : t.read = some r) (held : r.holdCount = t.hold)
    (last : r.index + 1 = d.data.length) : s.usedUpSlot = some (i, t) := by
  have slot : s.playingSlot = some i := by simp only [State.playingSlot, hk, hi]
  have head : s.headBlock t = some d := by simp only [State.headBlock, hf, hd]
  have used : s.usedUp t = true := by simp [State.usedUp, playing, hr, head, held, last]
  simp only [State.usedUpSlot, slot, ht, Option.bind_some, used, if_true]

/-- The stream past its head block (R133). -/
def OpenStream.moved (t : OpenStream) (rest : List BlockId) : OpenStream :=
  { t with filled := rest, read := some { index := 0, holdCount := 0 } }

/-- The part once a head block is freed: the block is at the tail of the free list, and STREAM_CREDIT is offered where the
free count has come to 8 (R133, R134). -/
def State.headFreed (s : State) (i : StreamSlotId) (t : OpenStream) (b : BlockId) : State :=
  { s with
    streams :=
      { slots := s.streams.slots.set i (some t)
        blocks := s.streams.blocks.set b none
        freeBlocks := s.streams.freeBlocks ++ [b] }
    reports := if s.freeCount + 1 = 8 then s.reports.offer (.streamCredit 8) s.now else s.reports }

theorem State.credit_headFreed (s : State) (i : StreamSlotId) (t : OpenStream) (b : BlockId) :
    State.credit s.freeCount ({ s with streams := s.streams.free [b] }.putStream i (some t)) = s.headFreed i t b := by
  have freed : ({ s with streams := s.streams.free [b] }.putStream i (some t)).freeCount = s.freeCount + 1 :=
    List.length_append
  rw [State.credit_eq, freed, State.headFreed]
  by_cases risen : s.freeCount + 1 = 8
  · rw [if_pos (by omega), if_pos risen, risen]
    rfl
  · rw [if_neg (by omega), if_neg risen]
    rfl

theorem State.headFreed_putStream (s : State) (i : StreamSlotId) (t t' : OpenStream) (b : BlockId) :
    (s.headFreed i t b).putStream i (some t') = s.headFreed i t' b := by
  simp [State.headFreed, State.putStream]

theorem State.useUp_eq (hf : t.filled = b :: rest) :
    s.useUp i t =
      if rest = [] ∧ s.boundPlaying t = true then
        if t.last then (s.headFreed i (t.moved rest) b).enterEnding streamVoice .finished
        else (s.headFreed i (t.moved rest) b).starve i (t.moved rest)
      else s.headFreed i (t.moved rest) b := by
  have freed := s.credit_headFreed i (t.moved rest) b
  simp only [OpenStream.moved] at freed
  simp only [State.useUp, hf, List.tail_cons, List.head?_cons, Option.toList_some, freed]
  rfl

theorem State.finishBlock_usedUp (h : s.usedUpSlot = some (i, t)) : s.finishBlock = s.useUp i t := by
  simp only [State.finishBlock, h]

/-- The stream STARVED at the head of its list, with this starve timer (R135). -/
def OpenStream.starved (t : OpenStream) (timer : Option Nat) : OpenStream :=
  { t with state := .starved, read := some { index := 0, holdCount := 0 }, starve := timer }

theorem State.starve_pause (h : t.policy = .pause) :
    s.starve i t = (s.putStream i (some (t.starved (some 0)))).offer (.streamStarved t.id) := by
  simp only [State.starve, OpenStream.starved, h]

theorem State.starve_finish (h : t.policy ≠ .pause) :
    s.starve i t =
      ((s.putStream i (some (t.starved none))).offer (.streamStarved t.id)).enterEnding streamVoice .underrun := by
  cases hp : t.policy with
  | pause => exact absurd hp h
  | finish => simp only [State.starve, OpenStream.starved, hp]

end

/-- Settles O42: the limit by `State.starveLimit_reached`, and the block by `State.useUp_eq`. -/
theorem streamsStarveAndRunOut : Obligations.StreamsStarveAndRunOut := by
  refine ⟨fun s i t hr ht starved limit => ?limit, fun s k i t b rest d r hr hk hi ht playing hf hd hread held last => ?used⟩
  case limit =>
    have reached := OpenStream.limitReached_of starved limit
    rw [exec_starveLimit hr ht reached, State.starveLimit_reached ht reached]
    rfl
  case used =>
    intro free t1 u starved
    obtain ⟨t', ht', bound⟩ := State.boundSlot_some hi
    obtain rfl := Option.some.inj (ht.symm.trans ht')
    have slot := State.usedUpSlot_eq hk hi ht playing hf hd hread held last
    have starves (timer : Option Nat) :
        ((s.headFreed i t1 b).putStream i (some (t1.starved timer))).offer (.streamStarved t.id) = starved timer := by
      rw [State.headFreed_putStream]
      rfl
    rw [exec_blockUsedUp hr, State.finishBlock_usedUp slot, State.useUp_eq hf]
    congr 2
    by_cases runsOut : rest = [] ∧ s.boundPlaying t = true
    · obtain ⟨emptied, sounding⟩ := runsOut
      have active := (State.boundPlaying_of_bound hk bound).mp sounding
      have goesOn : ¬(rest ≠ [] ∨ (s.voice 6).state ≠ .active) :=
        not_or.mpr ⟨not_not.mpr emptied, not_not.mpr active⟩
      rw [if_pos ⟨emptied, sounding⟩, if_neg goesOn]
      by_cases ended : t.last = true
      · rw [if_pos ended, if_pos ended]
        rfl
      rw [if_neg ended, if_neg ended]
      by_cases pause : t.policy = .pause
      · rw [if_pos pause, ← starves]
        exact State.starve_pause pause
      · rw [if_neg pause, ← starves]
        exact State.starve_finish pause
    · have goesOn : rest ≠ [] ∨ (s.voice 6).state ≠ .active := by
        refine not_and_or.mp fun ⟨emptied, active⟩ => runsOut ⟨emptied, ?_⟩
        exact (State.boundPlaying_of_bound hk bound).mpr active
      rw [if_neg runsOut, if_pos goesOn]
      rfl

end Sys2Proof.Machine
end

section
/-! TRIGGER.ARM and TRIGGER.DISARM: the tests of the template in their order, the slot as it is armed, and the reply (R145,
R146). -/

namespace Sys2Proof.Machine

/-! ### A template inside a longer body (11.6) -/

section
variable (f : List Byte) (o i : Nat)

theorem u8_drop : u8 (f.drop o) i = u8 f (o + i) := by
  rw [u8, u8, List.getD_eq_getElem?_getD, List.getD_eq_getElem?_getD, List.getElem?_drop]

theorem u16_drop : u16 (f.drop o) i = u16 f (o + i) := by
  simp only [u16, u8_drop, Nat.add_assoc]

theorem u32_drop : u32 (f.drop o) i = u32 f (o + i) := by
  simp only [u32, u16_drop, Nat.add_assoc]

theorem flag_drop (k : Nat) : flag (f.drop o) i k = flag f (o + i) k := by
  rw [flag, flag, u8_drop]

/-- The fields of a template are those of CUE.PLAY, from an offset on. -/
theorem readTemplate_drop : readTemplate (f.drop o) 0 = readTemplate f o := by
  simp only [readTemplate, readSource, readStart, readQuantize, u8_drop, u16_drop, u32_drop, flag_drop, Nat.zero_add,
    Nat.add_zero]

end

/-! ### TRIGGER.ARM (R145) -/

theorem exec_triggerArm {s : State} {num : Byte} {f : List Byte} (h : s.Passes .triggerArm num f) :
    exec (.triggerArm num f) s = .next (State.answered (ownArm f s.heard).1 .triggerArm num f (ownArm f s.heard).2) :=
  exec_passes rfl h rfl

section
variable {f : List Byte} {s : State}

theorem armRefusal_stream (stream : u8 f 7 = 3) : armRefusal f = some (badParam 7) :=
  if_pos stream

theorem armRefusal_atTick (notStream : u8 f 7 ≠ 3) (atTick : u8 f 15 = 1) : armRefusal f = some (badParam 14) := by
  rw [armRefusal, if_neg notStream, if_pos atTick]

theorem armRefusal_phraseRates (phrase : u8 f 7 = 0) (notAt : u8 f 15 ≠ 1) (rates : flag f 24 2 = true) :
    armRefusal f = some (badParam 20) := by
  have notStream : u8 f 7 ≠ 3 := by rw [phrase]; decide
  rw [armRefusal, if_neg notStream, if_neg notAt, if_pos ⟨phrase, rates⟩]

theorem armRefusal_none (notStream : u8 f 7 ≠ 3) (notAt : u8 f 15 ≠ 1) (fits : u8 f 7 ≠ 0 ∨ flag f 24 2 = false) :
    armRefusal f = none := by
  have notBoth : ¬(u8 f 7 = 0 ∧ flag f 24 2 = true) := not_and_or.mpr (fits.imp_right Bool.eq_false_iff.mp)
  rw [armRefusal, if_neg notStream, if_neg notAt, if_neg notBoth]

theorem ownArm_refused {a : Answer} (h : armRefusal f = some a) : ownArm f s = (s, a) := by
  simp only [ownArm, h]

theorem ownArm_armed (h : armRefusal f = none) :
    ownArm f s =
      (s.putTrigger (triggerOf (u8 f 0)) (some (readArmed f)),
        answerOk [byteOf (triggerOf (u8 f 0)).val, yesNo s.triggers.slots[triggerOf (u8 f 0)].isSome]) := by
  simp only [ownArm, h]

end

/-- A refused TRIGGER.ARM leaves every slot as it was (R145). -/
theorem exec_triggerArm_refused {s : State} {num : Byte} {f : List Byte} {a : Answer} (h : s.Passes .triggerArm num f)
    (refused : armRefusal f = some a) :
    exec (.triggerArm num f) s = .next (State.answered s .triggerArm num f a) := by
  rw [exec_triggerArm h, ownArm_refused refused]
  rfl

/-- What an accepted TRIGGER.ARM stores, its template read from the bytes after the first five fields (11.6). -/
theorem readArmed_eq (f : List Byte) :
    readArmed f =
      { line := if u8 f 1 = 0 then .trg0 else .trg1
        edge := if u8 f 2 = 0 then .fall else if u8 f 2 = 1 then .rise else .both
        mode := if u8 f 3 = 0 then .once else .repeating
        policy := if u8 f 4 = 0 then .ignore else .restart
        template := { readTemplate (f.drop 5) 0 with duck := false } } := by
  rw [readArmed, readTemplate_drop]
  congr 1
  obtain ⟨h, hn⟩ | ⟨h, hn⟩ | ⟨h, hn⟩ | ⟨h0, h1, -, n, hn⟩ := byte_cases (u8 f 2)
  · simp [h]
  · simp [h]
  · simp [h]
  · simp only [hn, if_neg h0, if_neg h1]

/-- ARMED or NOT_ARMED, by what the slot holds (R145, R146). -/
theorem yesNo_isSome (slot : Option Armed) : yesNo slot.isSome = if slot = none then 0 else 1 := by
  cases slot <;> rfl

/-! ### TRIGGER.DISARM (R146) -/

theorem exec_triggerDisarm {s : State} {num : Byte} {f : List Byte} (h : s.Passes .triggerDisarm num f) :
    exec (.triggerDisarm num f) s =
      .next (State.answered (ownDisarm f s.heard).1 .triggerDisarm num f (ownDisarm f s.heard).2) :=
  exec_passes rfl h rfl

section
variable {f : List Byte} {s : State}

theorem ownDisarm_slot (h : u8 f 0 = 0) :
    ownDisarm f s =
      (s.putTrigger (triggerOf (u8 f 1)) none, answerOk [yesNo s.triggers.slots[triggerOf (u8 f 1)].isSome]) :=
  if_pos h

theorem ownDisarm_all (h : u8 f 0 ≠ 0) :
    ownDisarm f s = (s.disarmAll, answerOk [byteOf (allTriggers.countP fun i => s.triggers.slots[i].isSome)]) :=
  if_neg h

end

/-- Settles O43: the first condition of R145 that fails gives the answer, and otherwise the slot is written; each form of
TRIGGER.DISARM in turn. -/
theorem triggersAreArmedAndDisarmed : Obligations.TriggersAreArmedAndDisarmed := by
  refine ⟨fun s num f h => ⟨fun stream => ?stream, fun notStream atTick => ?atTick,
    fun phrase notAt rates => ?rates, fun notStream notAt fits => ?armed⟩,
    fun s num f h => ⟨fun one => ?one, fun all => ?all⟩⟩
  case stream => exact exec_triggerArm_refused h (armRefusal_stream stream)
  case atTick => exact exec_triggerArm_refused h (armRefusal_atTick notStream atTick)
  case rates => exact exec_triggerArm_refused h (armRefusal_phraseRates phrase notAt rates)
  case armed =>
    rw [exec_triggerArm h, ownArm_armed (armRefusal_none notStream notAt fits), readArmed_eq, yesNo_isSome]
    rfl
  case one =>
    rw [exec_triggerDisarm h, ownDisarm_slot one, yesNo_isSome]
    rfl
  case all =>
    rw [exec_triggerDisarm h, ownDisarm_all all]
    rfl

end Sys2Proof.Machine
end

section
/-! The check register of frames (R156): a shift loses nothing, so the register over a frame and its two check
bytes ends at 0 for the right check alone. -/

namespace Sys2Proof.Machine

/-- The lowest place of the shifted register tells whether the polynomial was added. -/
theorem crcShift_low (r : Half) : (crcShift r).getLsbD 0 = r.getLsbD 15 := by
  unfold crcShift
  split
  · rename_i h; simp [h]
  · rename_i h; simpa using h

/-- A shift loses nothing. -/
theorem crcShift_injective : Function.Injective crcShift := by
  intro a b h
  have high : a.getLsbD 15 = b.getLsbD 15 := by rw [← crcShift_low, ← crcShift_low, h]
  have moved : a <<< 1 = b <<< 1 := by
    unfold crcShift at h
    rw [high] at h
    split at h
    · exact (BitVec.xor_left_inj _).mp h
    · exact h
  refine BitVec.eq_of_getLsbD_eq fun i hi => ?_
  obtain rfl | lt : i = 15 ∨ i < 15 := by omega
  · exact high
  · have place := congrArg (fun x : Half => x.getLsbD (i + 1)) moved
    have inside : i + 1 < 16 := by omega
    simpa [BitVec.getLsbD_shiftLeft, BitVec.getLsbD_eq_getElem hi, inside] using place

/-- The eight shifts of one byte. -/
def crcShifts (r : Half) : Half :=
  crcShift (crcShift (crcShift (crcShift (crcShift (crcShift (crcShift (crcShift r)))))))

theorem crcByte_eq (r : Half) (b : Byte) : crcByte r b = crcShifts (r ^^^ (b ++ (0 : Byte))) := rfl

theorem crcShifts_injective : Function.Injective crcShifts := fun _ _ h =>
  crcShift_injective (crcShift_injective (crcShift_injective (crcShift_injective (crcShift_injective
    (crcShift_injective (crcShift_injective (crcShift_injective h)))))))

/-- A byte that stands in the low half of the register is shifted into the high half. -/
theorem crcShifts_low : ∀ b : Byte, crcShifts ((0 : Byte) ++ b) = b ++ (0 : Byte) := by decide +kernel

theorem crc_append (bytes : List Byte) (hi lo : Byte) :
    crc (bytes ++ [hi, lo]) = crcByte (crcByte (crc bytes) hi) lo := by
  simp [crc, List.foldl_append]

/-- A term of an exclusive-or moves to the other side. -/
theorem xor_eq_iff_xor_eq (c h l : Half) : c ^^^ h = l ↔ h ^^^ l = c := by
  constructor
  · rintro rfl
    rw [BitVec.xor_comm c, ← BitVec.xor_assoc, BitVec.xor_self, BitVec.zero_xor]
  · rintro rfl
    rw [BitVec.xor_comm, ← BitVec.xor_assoc, BitVec.xor_self, BitVec.zero_xor]

/-- Settles O6: the register ends at 0 exactly when the shifts of what the high check byte leaves are the low one, which the
shifts bring there from the low half. -/
theorem checkEndsAtZero : Obligations.CheckEndsAtZero := by
  refine ⟨by decide +kernel, fun bytes hi lo => ?_⟩
  have zero : crcShifts 0 = 0 := by decide
  have halves : (hi ++ (0 : Byte)) ^^^ ((0 : Byte) ++ lo) = hi ++ lo := by
    rw [BitVec.xor_append]; simp
  calc crc (bytes ++ [hi, lo]) = 0
      ↔ crcShifts (crcByte (crc bytes) hi ^^^ (lo ++ (0 : Byte))) = crcShifts 0 := by
        rw [crc_append, crcByte_eq _ lo, zero]
    _ ↔ crcShifts (crc bytes ^^^ (hi ++ (0 : Byte))) = crcShifts ((0 : Byte) ++ lo) := by
        rw [crcShifts_injective.eq_iff, crcByte_eq, crcShifts_low]
        exact BitVec.xor_eq_zero_iff
    _ ↔ hi ++ lo = crc bytes := by
        rw [crcShifts_injective.eq_iff, ← halves]
        exact xor_eq_iff_xor_eq _ _ _

end Sys2Proof.Machine
end

section
/-! The transmitter's choice of a frame (R164, R177), outcome by outcome, and what the receiver holds, which has no part in it. -/

namespace Sys2Proof.Machine

/-! ### The choice of a frame (R164, R177) -/

section
variable {s : State}

/-- A command that changes something, at a part that is not held in reset. -/
theorem State.act_running (hr : s.inReset = false) (f : State → State) : s.act f = .next (f s).chooseFrame := by
  simp [State.act, hr]

theorem State.chooseFrame_busy (h : s.link.transmitter ≠ .idle) : s.chooseFrame = s :=
  if_neg fun k => h k.1

theorem State.chooseFrame_held (h : s.inReset = true) : s.chooseFrame = s :=
  if_neg fun k => by simp [h] at k

theorem State.chooseFrame_reply (hi : s.link.transmitter = .idle) (hr : s.inReset = false) {p : PendingReply}
    {rest : List PendingReply} (h : s.link.replies = p :: rest) :
    s.chooseFrame = { s with link := { s.link with transmitter := .reply (frame typeReply p.num p.body) } } := by
  rw [State.chooseFrame, if_pos ⟨hi, hr⟩]
  simp only [h]

/-- No report is begun outside an OPEN session, or with one of its timers due (R167, R177, R179). -/
theorem State.chooseFrame_silent (h : s.link.replies = [])
    (hs : ¬(s.link.session = .opened ∧ s.link.silenceDue = false ∧ s.timerDue = false)) : s.chooseFrame = s := by
  rw [State.chooseFrame]
  split
  · simp only [h]
  · rfl

theorem State.chooseFrame_nothing (h : s.link.replies = []) (hn : s.reports.handOver = none) : s.chooseFrame = s := by
  rw [State.chooseFrame]
  split
  · simp only [h, hn, ite_self]
  · rfl

theorem State.chooseFrame_report (hi : s.link.transmitter = .idle) (hr : s.inReset = false) (h : s.link.replies = [])
    (hs : s.link.session = .opened ∧ s.link.silenceDue = false ∧ s.timerDue = false) {k : Nat} {r : Report}
    (hk : s.reports.handOver = some (k, r)) :
    s.chooseFrame =
      { s with
        reports := { s.reports with queue := s.reports.queue.set k r }
        link := { s.link with transmitter := .report (frame typeReport r.sequence r.body) } } := by
  rw [State.chooseFrame, if_pos ⟨hi, hr⟩]
  simp only [h, if_pos hs, hk]

end

/-! ### What the receiver holds (9.2) -/

/-- The part with this in its receiver and this discard count. -/
def State.receiving (s : State) (r : Receiver) (discards : Nat) : State :=
  { s with link := { s.link with receiver := r, discards := discards } }

/-- The choice of a frame does not look at the receiver. -/
theorem State.chooseFrame_receiving (s : State) (r : Receiver) (d : Nat) :
    (s.receiving r d).chooseFrame = s.chooseFrame.receiving r d := by
  by_cases hi : s.link.transmitter = .idle
  swap
  · rw [State.chooseFrame_busy hi, State.chooseFrame_busy (s := s.receiving r d) hi]
  cases hr : s.inReset with
  | true => rw [State.chooseFrame_held hr, State.chooseFrame_held (s := s.receiving r d) hr]
  | false =>
    cases hp : s.link.replies with
    | cons p rest => rw [State.chooseFrame_reply hi hr hp, State.chooseFrame_reply (s := s.receiving r d) hi hr hp]; rfl
    | nil =>
      by_cases hs : s.link.session = .opened ∧ s.link.silenceDue = false ∧ s.timerDue = false
      swap
      · rw [State.chooseFrame_silent hp hs, State.chooseFrame_silent (s := s.receiving r d) hp hs]
      cases hk : s.reports.handOver with
      | none => rw [State.chooseFrame_nothing hp hk, State.chooseFrame_nothing (s := s.receiving r d) hp hk]
      | some k =>
        rw [State.chooseFrame_report hi hr hp hs hk, State.chooseFrame_report (s := s.receiving r d) hi hr hp hs hk]
        rfl

theorem State.hold_self {s : State} {bytes : List Byte} (h : s.link.receiver.held = bytes) : s.hold bytes = s := by
  subst h; rfl

end Sys2Proof.Machine
end

section
/-! The receiver (9.2): the tests of a frame being assembled, the bytes it drops, holds, discards and examines again, and the
frames it hands over (R155 to R160, R170). -/

namespace Sys2Proof.Machine

/-! ### The tests of a frame (R157) -/

theorem testFrame_length (x len : Byte) : testFrame [x, len] = if len.toNat ≤ 200 then .more else .bad := rfl

theorem testFrame_type (x len type : Byte) : testFrame [x, len, type] = if type = 1 then .more else .bad := rfl

theorem testFrame_inside (x len : Byte) {rest : List Byte} (h2 : 2 ≤ rest.length) (hn : rest.length ≠ len.toNat + 4) :
    testFrame (x :: len :: rest) = .more := by
  have hl : frameLen (x :: len :: rest) = len.toNat := rfl
  have length : (x :: len :: rest).length = rest.length + 2 := rfl
  rw [testFrame, hl, length, if_neg (by omega), if_neg (by omega), if_neg (by omega)]

theorem u16_append (a : List Byte) (hi lo : Byte) : u16 (a ++ [hi, lo]) a.length = hi ++ lo := by
  simp [u16, u8, List.getD_eq_getElem?_getD]

/-- The last check byte decides (R156, R157). -/
theorem testFrame_end (x len type num hi lo : Byte) {body : List Byte} (h : body.length = len.toNat) :
    testFrame (x :: len :: type :: num :: (body ++ [hi, lo])) =
      if crc (len :: type :: num :: body) = hi ++ lo then .good num body else .bad := by
  have hl : frameLen (x :: len :: type :: num :: (body ++ [hi, lo])) = len.toNat := rfl
  have length : (x :: len :: type :: num :: (body ++ [hi, lo])).length = len.toNat + 6 := by simp [h]
  have inner : (len :: type :: num :: (body ++ [hi, lo])).take (len.toNat + 3) = len :: type :: num :: body := by
    simp [← h]
  have check : u16 (x :: len :: type :: num :: (body ++ [hi, lo])) (len.toNat + 4) = hi ++ lo := by
    have := u16_append (x :: len :: type :: num :: body) hi lo
    simpa [← h] using this
  have good : checkGood (x :: len :: type :: num :: (body ++ [hi, lo])) =
      decide (crc (len :: type :: num :: body) = hi ++ lo) := by
    rw [checkGood, hl, check, List.drop_one, List.tail_cons, inner]
    rfl
  have handed : (body ++ [hi, lo]).take len.toNat = body := by simp [← h]
  rw [testFrame, hl, length, if_neg (by omega), if_neg (by omega), if_pos ⟨rfl, by omega⟩, good]
  simp only [decide_eq_true_eq]
  exact congrArg (fun l => if crc (len :: type :: num :: body) = hi ++ lo then FrameTest.good num l else .bad) handed

/-! ### The bytes taken in order (R157 to R159) -/

section
variable (a : Bool) (n : Nat) (s : State)

/-- A hunting receiver drops every byte before a start byte. -/
theorem receive_skip {skipped : List Byte} (h : Config.startByte ∉ skipped) (l : List Byte) :
    State.receive a (n + skipped.length) [] (skipped ++ l) s = State.receive a n [] l s := by
  induction skipped with
  | nil => rfl
  | cons b rest ih =>
    obtain ⟨hb, hrest⟩ := not_or.mp (mt List.mem_cons.mpr h)
    have step : State.receive a (n + rest.length + 1) [] (b :: (rest ++ l)) s =
        State.receive a (n + rest.length) [] (rest ++ l) s := by
      simp only [State.receive, if_true, if_neg (Ne.symm hb)]
    exact step.trans (ih hrest)

/-- With no start byte the receiver goes on hunting. -/
theorem receive_hunts {l : List Byte} (h : Config.startByte ∉ l) : State.receive a n [] l s = s.hold [] := by
  induction n generalizing l with
  | zero => rfl
  | succ n ih =>
    cases l with
    | nil => rfl
    | cons b l =>
      obtain ⟨hb, hl⟩ := not_or.mp (mt List.mem_cons.mpr h)
      simp only [State.receive, if_true, if_neg (Ne.symm hb)]
      exact ih hl

theorem receive_start (l : List Byte) :
    State.receive a (n + 1) [] (Config.startByte :: l) s = State.receive a n [Config.startByte] l s := by
  simp only [State.receive, if_true]

theorem receive_end (held : List Byte) : State.receive false (n + 1) held [] s = s.hold held := by
  cases held <;> rfl

theorem receive_abandon (b : Byte) (rest : List Byte) :
    State.receive true (n + 1) (b :: rest) [] s = State.receive true n [] rest s.countDiscard := rfl

variable {held : List Byte} {b : Byte} (hh : held ≠ [])
include hh

theorem receive_more (l : List Byte) (h : testFrame (held ++ [b]) = .more) :
    State.receive a (n + 1) held (b :: l) s = State.receive a n (held ++ [b]) l s := by
  simp only [State.receive, if_neg hh, h]

theorem receive_bad (l : List Byte) (h : testFrame (held ++ [b]) = .bad) :
    State.receive a (n + 1) held (b :: l) s =
      State.receive a n [] ((held ++ [b]).tail ++ l) (s.hold (held ++ [b] ++ l)).countDiscard := by
  simp only [State.receive, if_neg hh, h]

theorem receive_good (l : List Byte) {num : Byte} {body : List Byte} (h : testFrame (held ++ [b]) = .good num body) :
    State.receive a (n + 1) held (b :: l) s = State.receive a n [] l (s.takeFrame num body) := by
  simp only [State.receive, if_neg hh, h]

end

/-! ### The recursion ends by itself (log entry 24) -/

/-- A bound on the steps that are left: a step drops one of the bytes, or examines one more. -/
def receiveWork (held input : List Byte) : Nat :=
  (held.length + input.length) * (held.length + input.length + 1) + input.length

theorem receiveWork_fewer {held input held' input' : List Byte}
    (h : held'.length + input'.length < held.length + input.length) : receiveWork held' input' < receiveWork held input := by
  unfold receiveWork
  nlinarith

theorem receiveWork_joins (held input : List Byte) (b : Byte) :
    receiveWork (held ++ [b]) input < receiveWork held (b :: input) := by
  have same : (held ++ [b]).length + input.length = held.length + (b :: input).length := by simp; omega
  unfold receiveWork
  rw [same]
  simp

theorem receiveWork_lt_fuel (input : List Byte) : receiveWork [] input < receiveFuel input.length := by
  unfold receiveWork receiveFuel
  simp only [List.length_nil]
  nlinarith

/-- Fuel that covers the work is as good as any other, and lets an abandonment drop all that is in hand. -/
theorem receive_settles (a : Bool) {m n : Nat} {held input : List Byte} (s : State) (hm : receiveWork held input < m)
    (hn : receiveWork held input < n) :
    State.receive a m held input s = State.receive a n held input s ∧
      (a = true → (State.receive a n held input s).link.receiver.held = []) := by
  induction m generalizing n held input s with
  | zero => omega
  | succ m ih =>
    obtain ⟨n, rfl⟩ : ∃ k, n = k + 1 := ⟨n - 1, by omega⟩
    have less : ∀ {held' input' : List Byte} (t : State), receiveWork held' input' < receiveWork held input →
        State.receive a m held' input' t = State.receive a n held' input' t ∧
          (a = true → (State.receive a n held' input' t).link.receiver.held = []) :=
      fun t h => ih t (by omega) (by omega)
    cases input with
    | nil =>
      cases held with
      | nil => exact ⟨rfl, fun _ => rfl⟩
      | cons b rest =>
        cases a with
        | false => exact ⟨rfl, nofun⟩
        | true => exact less _ (receiveWork_fewer (by simp))
    | cons b input =>
      by_cases hh : held = []
      · subst hh
        simp only [State.receive, if_true]
        split
        · exact less _ (receiveWork_joins [] input b)
        · exact less _ (receiveWork_fewer (by simp))
      · cases ht : testFrame (held ++ [b]) with
        | more =>
          rw [receive_more _ _ _ hh _ ht, receive_more _ _ _ hh _ ht]
          exact less _ (receiveWork_joins held input b)
        | bad =>
          rw [receive_bad _ _ _ hh _ ht, receive_bad _ _ _ hh _ ht]
          exact less _ (receiveWork_fewer (by simp))
        | good num body =>
          rw [receive_good _ _ _ hh _ ht, receive_good _ _ _ hh _ ht]
          exact less _ (receiveWork_fewer (by simp; omega))

end Sys2Proof.Machine
end

section
/-! Discards, abandonments and received bytes, outcome by outcome (R157 to R160, R170). -/

namespace Sys2Proof.Machine

/-- A count raised by 1, stopping at 65535 (R160). -/
def counted (n : Nat) : Nat := min (n + 1) 65535

/-! ### The frame in hand is discarded (R158, R159) -/

section
variable {s : State} {x : Byte}

theorem State.discardFrame_held {rest : List Byte} (a : Bool) (hs : s.link.receiver.held = x :: rest) :
    s.discardFrame a = State.receive a (receiveFuel rest.length) [] rest s.countDiscard := by
  simp only [State.discardFrame, hs]

theorem State.discardFrame_hunting (a : Bool) (hs : s.link.receiver.held = []) : s.discardFrame a = s := by
  simp only [State.discardFrame, hs]

/-- With no start byte behind the first, the receiver hunts. -/
theorem State.discardFrame_hunts {rest : List Byte} (a : Bool) (hs : s.link.receiver.held = x :: rest)
    (hn : Config.startByte ∉ rest) :
    s.discardFrame a = s.receiving { s.link.receiver with held := [] } (counted s.link.discards) := by
  rw [State.discardFrame_held a hs, receive_hunts a _ _ hn]
  rfl

/-- Bytes that are a frame in hand as they stand: a start byte, and at most a LEN that passes. -/
def Begins (l : List Byte) : Prop :=
  l = [Config.startByte] ∨ ∃ len : Byte, len.toNat ≤ 200 ∧ l = [Config.startByte, len]

theorem Begins.receive {l : List Byte} (h : Begins l) (a : Bool) (n : Nat) (s : State) :
    State.receive a (n + 1 + l.length) [] l s = State.receive a (n + 1) l [] s := by
  obtain rfl | ⟨len, hlen, rfl⟩ := h
  · exact receive_start a _ s []
  · have test : testFrame ([Config.startByte] ++ [len]) = .more := (testFrame_length _ len).trans (if_pos hlen)
    exact (receive_start a _ s [len]).trans (receive_more a _ s (List.cons_ne_nil _ _) [] test)

/-- Fuel for the bytes behind the first: what is dropped, what is held, and one more. -/
theorem receiveFuel_split (skipped l : List Byte) :
    ∃ n, receiveFuel (skipped ++ l).length = n + 2 + l.length + skipped.length := by
  refine ⟨receiveFuel (skipped ++ l).length - 2 - l.length - skipped.length, ?_⟩
  have enough : (skipped ++ l).length + 2 ≤ receiveFuel (skipped ++ l).length := Nat.le_mul_self _
  rw [List.length_append] at *
  omega

/-- The frame that begins behind the first goes on assembling (R158). -/
theorem State.discardFrame_goesOn {skipped l : List Byte} (hs : s.link.receiver.held = x :: (skipped ++ l))
    (hn : Config.startByte ∉ skipped) (hl : Begins l) :
    s.discardFrame false = s.receiving { s.link.receiver with held := l } (counted s.link.discards) := by
  obtain ⟨n, hf⟩ := receiveFuel_split skipped l
  rw [State.discardFrame_held false hs, hf, receive_skip false _ _ hn, hl.receive, receive_end]
  rfl

/-- At an abandonment, the frame that begins behind the first is abandoned and counted too (R159). -/
theorem State.discardFrame_twice {rest : List Byte} (hs : s.link.receiver.held = x :: Config.startByte :: rest)
    (hl : Begins (Config.startByte :: rest)) (hn : Config.startByte ∉ rest) :
    s.discardFrame true = s.receiving { s.link.receiver with held := [] } (counted (counted s.link.discards)) := by
  obtain ⟨n, hf⟩ := receiveFuel_split [] (Config.startByte :: rest)
  rw [State.discardFrame_held true hs, ← List.nil_append (Config.startByte :: rest), hf, receive_skip true _ _ List.not_mem_nil, hl.receive,
    receive_abandon, receive_hunts _ _ _ hn]
  rfl

/-- The frame that begins behind the first fails its LEN test, and is discarded in its turn (R158). -/
theorem State.discardFrame_badLength {len : Byte} (hs : s.link.receiver.held = [x, Config.startByte, len])
    (hlen : 200 < len.toNat) :
    s.discardFrame false = s.receiving { s.link.receiver with held := [] } (counted (counted s.link.discards)) := by
  have test : testFrame ([Config.startByte] ++ [len]) = .bad :=
    (testFrame_length _ len).trans (if_neg (Nat.not_le.mpr hlen))
  have other : Config.startByte ∉ [len] := fun h => by
    rw [← List.mem_singleton.mp h] at hlen
    exact absurd hlen (by decide)
  rw [State.discardFrame_held false hs]
  refine (receive_start false 15 _ [len]).trans ?_
  rw [receive_bad false 14 _ (List.cons_ne_nil _ _) [] test, List.append_nil]
  exact receive_hunts false 14 _ other

end

/-! ### An abandonment that is due (R159, R170) -/

section
variable {s : State}

theorem Link.abandonDue_iff (l : Link) : l.abandonDue = true ↔ l.receiver.held ≠ [] ∧ 21 ≤ l.receiver.gap := by
  rw [Link.abandonDue, Bool.and_eq_true]
  exact and_congr (by simp) decide_eq_true_iff

theorem Link.abandonDue_hunting {l : Link} (h : l.receiver.held = []) : l.abandonDue = false := by
  simp [Link.abandonDue, h]

theorem Link.abandonDue_early {l : Link} (h : l.receiver.gap < 21) : l.abandonDue = false :=
  Bool.eq_false_iff.mpr fun k => Nat.not_le.mpr h (l.abandonDue_iff.mp k).2

theorem State.receiving_prompt (s : State) (held : List Byte) (d : Nat) :
    (s.receiving { held := held, gap := 0 } d).link.abandonDue = false :=
  Link.abandonDue_early (Nat.zero_lt_succ 20)

theorem State.abandonFrame_due (h : s.link.abandonDue = true) : s.abandonFrame = s.discardFrame true := if_pos h

/-- After an abandonment the receiver hunts. -/
theorem State.abandonFrame_hunts (h : s.link.abandonDue = true) : s.abandonFrame.link.receiver.held = [] := by
  obtain ⟨hh, -⟩ := s.link.abandonDue_iff.mp h
  obtain ⟨x, rest, e⟩ := List.exists_cons_of_ne_nil hh
  rw [State.abandonFrame_due h, State.discardFrame_held true e]
  have enough := receiveWork_lt_fuel rest
  exact (receive_settles true s.countDiscard enough enough).2 rfl

theorem State.abandonFrame_not_due (s : State) : s.abandonFrame.link.abandonDue = false := by
  cases h : s.link.abandonDue with
  | false => rwa [abandonFrame_idle s h]
  | true => exact Link.abandonDue_hunting (State.abandonFrame_hunts h)

end

/-! ### A byte arrives (R157) -/

section
variable {s : State} {b : Byte}

theorem State.takeByte_drops (hh : s.link.receiver.held = []) (hb : b ≠ Config.startByte) : s.takeByte b = s := by
  simp only [State.takeByte, hh, hb, ne_eq, not_false_eq_true, and_self, if_true]
  exact (receive_hunts false _ s fun h => hb (List.mem_singleton.mp h).symm).trans (State.hold_self hh)

theorem State.takeByte_starts (hh : s.link.receiver.held = []) :
    s.takeByte Config.startByte = s.receiving { held := [Config.startByte], gap := 0 } s.link.discards := by
  simp only [State.takeByte, hh, ne_eq, not_true_eq_false, and_false, if_false]
  rfl

/-- A byte that is held is tested with the frame in hand; the fuel covers what may follow. -/
theorem State.takeByte_held (hh : s.link.receiver.held ≠ []) :
    ∃ n, (∀ l : List Byte, l.length = s.link.receiver.held.length → receiveWork [] l < n + 1) ∧
      s.takeByte b =
        State.receive false (n + 2) s.link.receiver.held [b]
          (s.receiving { held := s.link.receiver.held, gap := 0 } s.link.discards) := by
  obtain ⟨n, hn⟩ : ∃ n, receiveFuel (s.link.receiver.held.length + 1) = n + 2 :=
    ⟨_, (Nat.sub_add_cancel (by unfold receiveFuel; nlinarith)).symm⟩
  refine ⟨n, fun l hl => ?_, ?_⟩
  · have := receiveWork_lt_fuel l
    unfold receiveFuel at this hn
    rw [hl] at this
    nlinarith
  · rw [← hn]
    simp only [State.takeByte, hh, false_and, if_false]
    rfl

theorem State.takeByte_joins (hh : s.link.receiver.held ≠ []) (ht : testFrame (s.link.receiver.held ++ [b]) = .more) :
    s.takeByte b = s.receiving { held := s.link.receiver.held ++ [b], gap := 0 } s.link.discards := by
  obtain ⟨n, -, e⟩ := State.takeByte_held (b := b) hh
  rw [e, receive_more _ _ _ hh _ ht, receive_end]
  rfl

/-- A valid request frame is handed over, and the receiver hunts. -/
theorem State.takeByte_hands (hh : s.link.receiver.held ≠ []) {num : Byte} {body : List Byte}
    (ht : testFrame (s.link.receiver.held ++ [b]) = .good num body) :
    s.takeByte b =
      ((s.receiving { held := s.link.receiver.held, gap := 0 } s.link.discards).takeFrame num body).hold [] := by
  obtain ⟨n, -, e⟩ := State.takeByte_held (b := b) hh
  rw [e, receive_good _ _ _ hh _ ht, receive_end]

/-- A byte that fails its test is held and discarded with the frame (R158). -/
theorem State.takeByte_discards (hh : s.link.receiver.held ≠ []) (ht : testFrame (s.link.receiver.held ++ [b]) = .bad) :
    s.takeByte b =
      (s.receiving { held := s.link.receiver.held ++ [b], gap := 0 } s.link.discards).discardFrame false := by
  obtain ⟨n, enough, e⟩ := State.takeByte_held (b := b) hh
  obtain ⟨x, rest, hx⟩ := List.exists_cons_of_ne_nil hh
  rw [e, receive_bad _ _ _ hh _ ht, State.discardFrame_held (x := x) (rest := rest ++ [b]) false (by rw [hx]; rfl)]
  rw [hx]
  simp only [List.append_nil, List.cons_append, List.tail_cons]
  exact (receive_settles false _ (enough _ (by simp [hx])) (receiveWork_lt_fuel _)).1

end

/-! ### A request frame, byte by byte (R155, R157) -/

section
variable {s : State}

theorem exec_byteReceived (hr : s.inReset = false) (b : Byte) : exec (.byteReceived b) s = .next (s.byteIn b).chooseFrame :=
  State.act_running hr fun s => s.byteIn b

/-- With no abandonment due, the byte meets the receiver as it stands. -/
theorem exec_byteReceived_prompt (hr : s.inReset = false) (h : s.link.abandonDue = false) (b : Byte) :
    exec (.byteReceived b) s = .next (s.takeByte b).chooseFrame := by
  rw [exec_byteReceived hr, State.byteIn, abandonFrame_idle s h]

theorem exec_byteReceived_receiving (hr : s.inReset = false) (held : List Byte) (d : Nat) (b : Byte) :
    exec (.byteReceived b) (s.receiving { held := held, gap := 0 } d) =
      .next ((s.receiving { held := held, gap := 0 } d).takeByte b).chooseFrame :=
  exec_byteReceived_prompt (s := s.receiving { held := held, gap := 0 } d) hr (s.receiving_prompt held d) b

/-- A receiver that holds bytes at gap count 0 takes every byte that only joins them, and the transmitter stays as it is. -/
theorem feed_joins (hr : s.inReset = false) (hc : s.chooseFrame = s) (d : Nat) (later : List Byte) {held bytes : List Byte}
    (hh : held ≠ []) (more : ∀ l, l ≠ [] → l <+: bytes → testFrame (held ++ l) = .more) :
    feed (bytes ++ later) (s.receiving { held := held, gap := 0 } d) =
      feed later (s.receiving { held := held ++ bytes, gap := 0 } d) := by
  induction bytes generalizing held with
  | nil => rw [List.append_nil]; rfl
  | cons b bytes ih =>
    have step : exec (.byteReceived b) (s.receiving { held := held, gap := 0 } d) =
        .next (s.receiving { held := held ++ [b], gap := 0 } d) := by
      have joins := State.takeByte_joins (s := s.receiving { held := held, gap := 0 } d) hh
        (more [b] (List.cons_ne_nil _ _) ⟨bytes, rfl⟩)
      rw [exec_byteReceived_receiving hr, joins]
      exact congrArg Host.Outcome.next ((s.chooseFrame_receiving _ d).trans (by rw [hc]; rfl))
    rw [List.cons_append, feed, step]
    refine (ih (List.append_ne_nil_of_left_ne_nil hh [b]) fun l hl hp => ?_).trans (by rw [List.append_assoc]; rfl)
    rw [List.append_assoc]
    exact more _ (List.cons_ne_nil _ _) ((List.prefix_cons_inj b).mpr hp)

end

/-- A 2-byte field holds the number, high byte first (R185). -/
theorem be16_eq (w : Half) : ∃ hi lo : Byte, be16 w = [hi, lo] ∧ w = hi ++ lo := by
  refine ⟨_, _, rfl, ?_⟩
  rw [BitVec.extractLsb'_append_extractLsb'_eq_extractLsb' (by decide)]
  simp

/-- A request frame: its bytes up to the high check byte only join one another, and the last one completes it. -/
theorem frame_request (num : Byte) {body : List Byte} (h : body.length ≤ 200) :
    ∃ (bytes : List Byte) (lo : Byte), frame typeRequest num body = [Config.startByte] ++ bytes ++ [lo] ∧
      (∀ l, l ≠ [] → l <+: bytes → testFrame ([Config.startByte] ++ l) = .more) ∧
      testFrame ([Config.startByte] ++ bytes ++ [lo]) = .good num body := by
  have len : (byteOf body.length).toNat = body.length := by
    rw [BitVec.toNat_ofNat]
    omega
  obtain ⟨hi, lo, bytes, check⟩ := be16_eq (crc (byteOf body.length :: typeRequest :: num :: body))
  refine ⟨byteOf body.length :: typeRequest :: num :: (body ++ [hi]), lo, ?_, fun l hl hp => ?_, ?_⟩
  · simp [frame, bytes]
  · obtain ⟨rest, hrest⟩ := hp
    match l, hl, hrest with
    | [x], _, e =>
      obtain rfl : x = byteOf body.length := (List.cons.inj e).1
      exact (testFrame_length _ _).trans (if_pos (len.trans_le h))
    | [x, y], _, e =>
      obtain rfl : y = typeRequest := (List.cons.inj (List.cons.inj e).2).1
      exact (testFrame_type _ _ _).trans (if_pos rfl)
    | x :: y :: z :: l, _, e =>
      obtain rfl : x = byteOf body.length := (List.cons.inj e).1
      have total := congrArg List.length e
      simp only [List.length_append, List.length_cons, List.length_nil] at total
      refine testFrame_inside _ _ (by simp) ?_
      rw [len]
      simp only [List.length_cons]
      omega
  · have complete := testFrame_end Config.startByte (byteOf body.length) typeRequest num hi lo len.symm
    rw [if_pos check] at complete
    simpa using complete

/-- Settles O7: every byte but the last joins the frame, and the last completes it. -/
theorem frameIsReceived : Obligations.FrameIsReceived := by
  intro s num body hr hh hc hlen
  obtain ⟨bytes, lo, e, joins, complete⟩ := frame_request num hlen
  have start : exec (.byteReceived Config.startByte) s =
      .next (s.receiving { held := [Config.startByte], gap := 0 } s.link.discards) := by
    rw [exec_byteReceived_prompt hr (Link.abandonDue_hunting hh), State.takeByte_starts hh, State.chooseFrame_receiving, hc]
  have last : exec (.byteReceived lo)
      (s.receiving { held := [Config.startByte] ++ bytes, gap := 0 } s.link.discards) =
      .next (State.chooseFrame (State.hold (State.takeFrame
        (s.receiving { held := [Config.startByte] ++ bytes, gap := 0 } s.link.discards) num body) [])) := by
    rw [exec_byteReceived_receiving hr]
    exact congrArg (fun t : State => Host.Outcome.next t.chooseFrame)
      (State.takeByte_hands (s := s.receiving { held := [Config.startByte] ++ bytes, gap := 0 } s.link.discards)
        (List.cons_ne_nil Config.startByte bytes) complete)
  rw [e, List.dropLast_concat, List.append_assoc, List.singleton_append, feed, start]
  refine (feed_joins hr hc _ [lo] (List.cons_ne_nil _ _) joins).trans ?_
  rw [feed, last]
  rfl

end Sys2Proof.Machine
end

section
/-! What BYTE_RECEIVED, FRAME_DISCARD and FRAME_ABANDON do in every state of the receiver (R157 to R161, R170). -/

namespace Sys2Proof.Machine

/-! ### FRAME_DISCARD and FRAME_ABANDON (R158, R159) -/

section
variable {s : State} (hr : s.inReset = false)
include hr

theorem exec_frameDiscard : exec .frameDiscard s = .next (s.abandonFrame.discardFrame false).chooseFrame :=
  State.act_running hr State.badStop

theorem exec_frameDiscard_prompt (h : s.link.abandonDue = false) :
    exec .frameDiscard s = .next (s.discardFrame false).chooseFrame := by
  rw [exec_frameDiscard hr, abandonFrame_idle s h]

/-- A FRAME_DISCARD at a due abandonment meets a hunting receiver (R170). -/
theorem exec_frameDiscard_due (h : s.link.abandonDue = true) :
    exec .frameDiscard s = .next (s.discardFrame true).chooseFrame := by
  rw [exec_frameDiscard hr, State.discardFrame_hunting false (State.abandonFrame_hunts h), State.abandonFrame_due h]

theorem exec_frameAbandon (h : s.link.abandonDue = true) :
    exec .frameAbandon s = .next (s.discardFrame true).chooseFrame :=
  (event_stands s .abandon hr h).trans
    (congrArg (fun t : State => Host.Outcome.next t.chooseFrame) (State.abandonFrame_due h))

/-- Either command at a due abandonment takes it. -/
theorem exec_abandons {c : Instr} (hc : c = .frameAbandon ∨ c = .frameDiscard) (h : s.link.abandonDue = true) :
    exec c s = .next (s.discardFrame true).chooseFrame := by
  obtain rfl | rfl := hc
  exacts [exec_frameAbandon hr h, exec_frameDiscard_due hr h]

end

theorem Begins.of_short {rest : List Byte} (h1 : rest.length ≤ 1) (hl : ∀ len, rest = [len] → len.toNat ≤ 200) :
    Begins (Config.startByte :: rest) :=
  match rest, h1, hl with
  | [], _, _ => .inl rfl
  | [len], _, hl => .inr ⟨len, hl len rfl, rfl⟩

/-- Settles O9: by the bytes behind the first, and whether the abandonment is due. -/
theorem framesAreDiscarded : Obligations.FramesAreDiscarded := by
  refine ⟨fun s hr hh => ?hunting, fun s b rest c hr hh hn hc => ?hunts,
    fun s b rest hr hn h1 hlen hh => ⟨fun early => ?goesOn, fun c hc late => ?twice⟩⟩
  case hunting => rw [exec_frameDiscard_prompt hr (Link.abandonDue_hunting hh), State.discardFrame_hunting false hh]
  case hunts =>
    have held : s.link.receiver.held ≠ [] := by rw [hh]; exact List.cons_ne_nil _ _
    obtain ⟨a, e⟩ : ∃ a, exec c s = .next (s.discardFrame a).chooseFrame := by
      cases due : s.link.abandonDue with
      | true => exact ⟨true, exec_abandons hr (hc.symm.imp_left And.left) due⟩
      | false =>
        obtain rfl | ⟨-, late⟩ := hc
        · exact ⟨false, exec_frameDiscard_prompt hr due⟩
        · rw [s.link.abandonDue_iff.mpr ⟨held, late⟩] at due
          cases due
    rw [e, State.discardFrame_hunts a hh hn]
    rfl
  case goesOn =>
    rw [exec_frameDiscard_prompt hr (Link.abandonDue_early early),
      State.discardFrame_goesOn (skipped := []) hh List.not_mem_nil (.of_short h1 hlen)]
    rfl
  case twice =>
    have due : s.link.abandonDue = true := s.link.abandonDue_iff.mpr ⟨by rw [hh]; exact List.cons_ne_nil _ _, late⟩
    rw [exec_abandons hr hc due, State.discardFrame_twice hh (.of_short h1 hlen) hn]
    rfl

/-! ### BYTE_RECEIVED (R157, R158) -/

theorem Request.ofCode_code (r : Request) : Request.ofCode r.code = some r := by cases r <;> rfl

/-- A request is taken as its frame is (R161): the code names it. -/
theorem State.takeFrame_request (s : State) (r : Request) (num : Byte) (f : List Byte) :
    s.takeFrame num (r.code :: f) = s.takeRequest r r.carried num f := by
  simp only [State.takeFrame, r.ofCode_code]

theorem exec_takesFrame {s : State} {c : Instr} {r : Request} {num : Byte} {f : List Byte}
    (hq : requestOf c = some (r, num, f)) (hr : s.inReset = false) (h : s.link.abandonDue = false) :
    exec c s = .next (s.takeFrame num (r.code :: f)).chooseFrame := by
  rw [exec_request c s r num f hq, State.request, State.act_running hr, abandonFrame_idle s h, State.takeFrame_request]

/-- At a due abandonment, the byte meets the hunting receiver that the abandonment leaves (R170). -/
theorem exec_byteReceived_due {s : State} (hr : s.inReset = false) (h : s.link.abandonDue = true) (b : Byte) :
    ∃ t, exec .frameAbandon s = .next t ∧ t.link.receiver.held = [] ∧
      exec (.byteReceived b) s =
        .next (if b = Config.startByte then t.receiving { held := [Config.startByte], gap := 0 } t.link.discards else t) := by
  have hunts : s.abandonFrame.link.receiver.held = [] := State.abandonFrame_hunts h
  obtain ⟨x, hx⟩ := chooseFrame_link s.abandonFrame
  refine ⟨s.abandonFrame.chooseFrame, event_stands s .abandon hr h, by rw [hx]; exact hunts, ?_⟩
  rw [exec_byteReceived hr, State.byteIn]
  split
  · rename_i hb
    subst hb
    rw [State.takeByte_starts hunts, State.chooseFrame_receiving, hx]
  · rename_i hb
    rw [State.takeByte_drops hunts hb]

/-- The byte leaves the receiver with these bytes in hand, and this discard count. -/
def State.Receives (s : State) (b : Byte) (bytes : List Byte) (discards : Nat) : Prop :=
  exec (.byteReceived b) s = .next (s.receiving { held := bytes, gap := 0 } discards).chooseFrame

section
variable {s : State} {b : Byte}

theorem receives_starts (hr : s.inReset = false) (hh : s.link.receiver.held = []) :
    s.Receives Config.startByte [Config.startByte] s.link.discards := by
  rw [State.Receives, exec_byteReceived_prompt hr (Link.abandonDue_hunting hh), State.takeByte_starts hh]

variable {held : List Byte} (hr : s.inReset = false) (early : s.link.receiver.gap < 21) (e : s.link.receiver.held = held)
  (hh : held ≠ [])
include hr early e hh

theorem receives_joins (ht : testFrame (held ++ [b]) = .more) : s.Receives b (held ++ [b]) s.link.discards := by
  subst e
  rw [State.Receives, exec_byteReceived_prompt hr (Link.abandonDue_early early), State.takeByte_joins hh ht]

/-- The last byte of a good frame: it is handed over, and the receiver hunts. -/
theorem exec_byteReceived_hands {num : Byte} {body : List Byte} (ht : testFrame (held ++ [b]) = .good num body) :
    exec (.byteReceived b) s =
      .next (((s.receiving { held := held, gap := 0 } s.link.discards).takeFrame num body).hold []).chooseFrame := by
  subst e
  rw [exec_byteReceived_prompt hr (Link.abandonDue_early early), State.takeByte_hands hh ht]

theorem exec_byteReceived_discards (ht : testFrame (held ++ [b]) = .bad) :
    exec (.byteReceived b) s =
      .next ((s.receiving { held := held ++ [b], gap := 0 } s.link.discards).discardFrame false).chooseFrame := by
  subst e
  rw [exec_byteReceived_prompt hr (Link.abandonDue_early early), State.takeByte_discards hh ht]

theorem receives_hunts (ht : testFrame (held ++ [b]) = .bad) {x : Byte} {rest : List Byte} (hx : held ++ [b] = x :: rest)
    (hn : Config.startByte ∉ rest) : s.Receives b [] (counted s.link.discards) := by
  rw [State.Receives, exec_byteReceived_discards hr early e hh ht, hx,
    State.discardFrame_hunts (s := s.receiving _ _) false rfl hn]
  rfl

theorem receives_goesOn (ht : testFrame (held ++ [b]) = .bad) {x : Byte} {skipped l : List Byte}
    (hx : held ++ [b] = x :: (skipped ++ l)) (hn : Config.startByte ∉ skipped) (hl : Begins l) :
    s.Receives b l (counted s.link.discards) := by
  rw [State.Receives, exec_byteReceived_discards hr early e hh ht, hx,
    State.discardFrame_goesOn (s := s.receiving _ _) rfl hn hl]
  rfl

end

/-- The second byte behind a start byte is LEN, and the third TYPE (R155, R157). -/
theorem receives_third {s : State} {b start len : Byte} (hr : s.inReset = false) (early : s.link.receiver.gap < 21)
    (e : s.link.receiver.held = [start, len]) :
    (b = 0x01 → s.Receives b [start, len, b] s.link.discards) ∧
      (b ≠ 0x01 → len ≠ 0xC3 → b ≠ 0xC3 → s.Receives b [] (counted s.link.discards)) ∧
      (b = 0xC3 → len ≠ 0xC3 → s.Receives b [0xC3] (counted s.link.discards)) ∧
      (b ≠ 0x01 → len = 0xC3 → b.toNat ≤ 200 → s.Receives b [0xC3, b] (counted s.link.discards)) ∧
      (len = 0xC3 → 200 < b.toNat → s.Receives b [] (counted (counted s.link.discards))) := by
  have nonempty : [start, len] ≠ [] := List.cons_ne_nil _ _
  have bad : b ≠ 0x01 → testFrame ([start, len] ++ [b]) = .bad := fun h => (testFrame_type _ _ _).trans (if_neg h)
  refine ⟨fun ok => receives_joins hr early e nonempty ((testFrame_type _ _ _).trans (if_pos ok)),
    fun h1 h2 h3 => receives_hunts hr early e nonempty (bad h1) rfl ?_, fun h1 h2 => ?_, fun h1 h2 h3 => ?_, fun h1 h2 => ?_⟩
  · exact List.not_mem_cons_of_ne_of_not_mem (Ne.symm h2) (mt List.mem_singleton.mp (Ne.symm h3))
  · subst h1
    exact receives_goesOn hr early e nonempty (bad (by decide)) (skipped := [len]) rfl
      (fun k => h2 (List.mem_singleton.mp k).symm) (.inl rfl)
  · subst h2
    exact receives_goesOn hr early e nonempty (bad h1) (skipped := []) rfl List.not_mem_nil (.inr ⟨b, h3, rfl⟩)
  · have notOne : b ≠ 0x01 := by rintro rfl; exact absurd h2 (by decide)
    subst h1
    rw [State.Receives, exec_byteReceived_discards hr early e nonempty (bad notOne),
      State.discardFrame_badLength (s := s.receiving _ _) rfl h2]
    rfl

/-- Settles O8: by what the receiver holds, and the test of the byte with it. -/
theorem byteReceivedHolds : Obligations.ByteReceivedHolds := by
  refine ⟨fun s b hr => ⟨⟨_, exec_byteReceived hr b⟩, fun hh hb => ?drops, fun hh hb => ?starts, fun hh late => ?due,
    fun hh early => ⟨fun start e => ⟨fun ok => ?len, fun bad => ?badLen⟩, fun start len e => receives_third hr early e,
      fun start len rest e h1 h2 => ?inside, fun start len type num body hi e hlen => ⟨fun good => ?good, fun bad => ?bad⟩⟩⟩,
    fun s c r num f hq hr h => exec_takesFrame hq hr h⟩
  case drops => rw [exec_byteReceived_prompt hr (Link.abandonDue_hunting hh), State.takeByte_drops hh hb]
  case starts =>
    subst hb
    exact receives_starts hr hh
  case due => exact exec_byteReceived_due hr (s.link.abandonDue_iff.mpr ⟨hh, late⟩) b
  case len => exact receives_joins hr early e (List.cons_ne_nil _ _) ((testFrame_length _ _).trans (if_pos ok))
  case badLen =>
    refine receives_hunts hr early e (List.cons_ne_nil _ _) ((testFrame_length _ _).trans (if_neg (Nat.not_le.mpr bad))) rfl
      fun k => ?_
    rw [← List.mem_singleton.mp k] at bad
    exact absurd bad (by decide)
  case inside =>
    have := List.length_pos_iff.mpr h1
    refine receives_joins hr early rfl hh ?_
    rw [e]
    exact testFrame_inside _ _ (by simp; omega) (by simpa using h2)
  case good =>
    have ends := testFrame_end start len type num hi b hlen
    rw [if_pos good] at ends
    exact exec_byteReceived_hands hr early rfl hh (by rw [e]; simpa using ends)
  case bad =>
    have ends := testFrame_end start len type num hi b hlen
    rw [if_neg bad] at ends
    have test : testFrame (s.link.receiver.held ++ [b]) = .bad := by rw [e]; simpa using ends
    obtain ⟨x, rest, hx⟩ := List.exists_cons_of_ne_nil hh
    have first : s.link.receiver.held ++ [b] = x :: (s.link.receiver.held.tail ++ [b]) := by rw [hx]; rfl
    refine ⟨receives_hunts hr early rfl hh test first, _, ?_, exec_byteReceived_discards hr early rfl hh test⟩
    exact exec_frameDiscard_prompt (s := s.receiving _ s.link.discards) hr (s.receiving_prompt _ _)

end Sys2Proof.Machine
end

section
/-! The transmitter: what it begins (R164, R177), what the end of a frame brings (R163, R169, R178), and the timers of the
link (R167, R178). -/

namespace Sys2Proof.Machine

/-! ### The timers (R167, R178) -/

theorem Link.silenceDue_iff (l : Link) :
    l.silenceDue = true ↔ l.session = .opened ∧ l.silenceTimeout ≠ 0 ∧ l.silenceTimeout ≤ l.silenceCount := by
  simp [Link.silenceDue, and_assoc]

/-- The head's last sent tick lies 250 or more ticks behind, and its frame is neither due nor on the line (R178). -/
def ReportUnit.Expired (u : ReportUnit) (now : Tick) : Prop :=
  ∃ r rest t, u.queue = r :: rest ∧ r.frameDue = false ∧ r.onLine = false ∧ r.lastSent = some t ∧
    Config.retransmitTicks ≤ (now - t).toNat

theorem ReportUnit.timerReached_iff (u : ReportUnit) (now : Tick) : u.timerReached now = true ↔ u.Expired now := by
  unfold ReportUnit.timerReached ReportUnit.Expired
  cases u.queue with
  | nil => simp
  | cons r rest => simp [Option.any_eq_true, and_assoc]

theorem State.timerDue_iff (s : State) : s.timerDue = true ↔ s.link.session = .opened ∧ s.reports.Expired s.now := by
  rw [State.timerDue, Bool.and_eq_true, beq_iff_eq, ReportUnit.timerReached_iff]

/-! ### The report to send (R177) -/

section
variable {u : ReportUnit}

theorem ReportUnit.handOver_none (h : ∀ k, k < 4 → ∀ r, u.queue[k]? = some r → r.frameDue = false) : u.handOver = none := by
  have nothing : u.toSend = none := by
    refine List.findIdx?_eq_none_iff.mpr fun r hr => ?_
    obtain ⟨k, hk⟩ := List.mem_iff_getElem?.mp hr
    rw [List.getElem?_take] at hk
    split at hk
    · exact h k ‹_› r hk
    · cases hk
  rw [ReportUnit.handOver, nothing]
  rfl

theorem ReportUnit.handOver_first {k : Nat} {r : Report} (hk : k < 4) (hr : u.queue[k]? = some r) (due : r.frameDue = true)
    (before : ∀ j, j < k → ∀ q, u.queue[j]? = some q → q.frameDue = false) : u.handOver = some (k, r.handed) := by
  have first : u.toSend = some k := by
    obtain ⟨inside, rfl⟩ := List.getElem?_eq_some_iff.mp hr
    refine List.findIdx?_eq_some_iff_getElem.mpr ⟨?_, ?_, fun j hj => ?_⟩
    · rw [List.length_take]; exact lt_min hk inside
    · rw [List.getElem_take]; exact due
    · rw [List.getElem_take, before j hj _ (List.getElem?_eq_getElem (hj.trans inside))]; decide
  simp only [ReportUnit.handOver, first, Option.bind_some, hr, Option.map_some]

end

/-- Settles O18: by what waits, and the timers that keep reports back. -/
theorem nextFrameIsChosen : Obligations.NextFrameIsChosen := by
  intro s silent expired
  have quiet : ¬(s.link.session = .opened ∧ s.link.silenceDue = false ∧ s.timerDue = false) ↔
      s.link.session ≠ .opened ∨ silent ∨ expired := by
    rw [← Bool.not_eq_true, ← Bool.not_eq_true, s.link.silenceDue_iff, s.timerDue_iff]
    by_cases opened : s.link.session = .opened
    · have only : ¬(¬silent ∧ ¬expired) ↔ silent ∨ expired := by rw [not_and_or, not_not, not_not]
      simp only [opened, true_and, ne_eq, not_true_eq_false, false_or]
      exact only
    · simp [opened]
  refine ⟨State.chooseFrame_busy, fun idle hr => ⟨fun p rest hp => State.chooseFrame_reply idle hr hp,
    fun noReply hs => State.chooseFrame_silent noReply (quiet.mpr hs), fun noReply opened notSilent notExpired =>
      ⟨fun h => State.chooseFrame_nothing noReply (ReportUnit.handOver_none h), fun k r hk hr' due before => ?_⟩⟩⟩
  have sends : s.link.session = .opened ∧ s.link.silenceDue = false ∧ s.timerDue = false :=
    not_not.mp fun k => (quiet.mp k).elim (fun h => h opened) fun h => h.elim notSilent notExpired
  exact State.chooseFrame_report idle hr noReply sends (ReportUnit.handOver_first hk hr' due before)

/-! ### The end of a frame (R163, R169, R178) -/

/-- Settles O19: by the frame on TXD, and whether it is the reply of a SYSTEM.RESET FULL. -/
theorem framesEnd : Obligations.FramesEnd := by
  intro s bytes hr
  refine ⟨fun p rest onLine first => ⟨fun plain => ?reply, fun full => ?full⟩, fun onLine => ?report⟩
  case reply =>
    have notFull : s.link.sendingFull = false := by simp [Link.sendingFull, first, plain]
    have isReply : s.link.transmitter.isReply = true := by rw [onLine]; rfl
    have left : s.replySent = s.replyLeft := by
      rw [State.replySent, if_neg (by simp [notFull]), if_pos isReply]
    refine (State.act_running hr State.replySent).trans ?_
    rw [left, State.replyLeft, first]
    rfl
  case full =>
    have sending : s.link.sendingFull = true := by simp [Link.sendingFull, first, full, onLine, Transmitter.isReply]
    refine ⟨s.resetKept .soft s.straps, ?_, ?_⟩
    · have soft : s.softReset s.straps = s.resetKept .soft s.straps := if_pos sending
      refine (State.act_running hr fun u => u.softReset s.straps).trans ?_
      rw [soft, (s.resetKept_restarted .soft s.straps).chooseFrame]
    · have soft : s.replySent = s.softAtReplyEnd := if_pos sending
      refine (State.act_running hr State.replySent).trans ?_
      rw [soft, s.softAtReplyEnd_restarted.chooseFrame]
      rfl
  case report =>
    have sent : s.reportSent =
        { s with
          reports := { s.reports with queue := s.reports.queue.map (Report.lineEnded s.now) }
          link := { s.link with transmitter := .idle } } := by
      simp only [State.reportSent, onLine]
    refine (State.act_running hr State.reportSent).trans ?_
    rw [sent]
    rfl

end Sys2Proof.Machine
end

section
/-! The taking of requests: the reply and its record (R162, R163, R189), the common checks (R186 to R188), LINK.OPEN (R166,
R181). -/

namespace Sys2Proof.Machine

/-- Settles O13: the owner's results spelled out, byte by byte. -/
theorem linkOpenOpensTheSession : Obligations.LinkOpenOpensTheSession := by
  intro s num f h
  refine (exec_passes rfl h rfl).trans
    (congrArg (fun results => Host.Outcome.next (State.answered _ .linkOpen num f (answerOk results))) ?_)
  have identity : s.heard.link.openResults s.heard.now =
      ([0x02, 0x62, 1, 48, 32, 64, 7, 2, 32, 4, 32, 8, s.link.resetCause.code, if s.link.firstOpen then 1 else 0] : List Byte) ++
        be32 s.time.tick := rfl
  rw [identity]
  cases s.link.resetCause <;> rfl

end Sys2Proof.Machine
end

section
/-! What answers a request: the reply among the pending replies and its record in the cache (R162 to R164, R189), and the
common checks (R165, R186 to R188). -/

namespace Sys2Proof.Machine

/-! ### Codes and scopes (11.3, R162) -/

theorem Request.code_inj {r q : Request} : r.code = q.code ↔ r = q :=
  ⟨fun h => Option.some.inj (by rw [← r.ofCode_code, h, q.ofCode_code]), congrArg Request.code⟩

theorem scopeOf_request (r : Request) (f : List Byte) :
    scopeOf r.code f = if r = .systemReset then f.head? else none :=
  if_congr Request.code_inj rfl rfl

theorem isFullReset_iff (r : Request) (f : List Byte) :
    isFullReset r.code f = true ↔ r = .systemReset ∧ f.head? = some 1 := by
  rw [isFullReset, scopeOf_request, beq_iff_eq]
  split <;> simp [*]

/-! ### The reply cache (R162) -/

/-- What a recorded reply leaves of the cache: the entries of other tags, without the oldest where 8 of them leave no room. -/
theorem roomFor_eq (num : Byte) (cache : List CacheEntry) :
    roomFor num cache =
      if 8 ≤ cache.length ∧ ∀ e ∈ cache, e.tag ≠ num then (cache.filter fun e => decide (e.tag ≠ num)).drop 1
      else cache.filter fun e => decide (e.tag ≠ num) := by
  have others : (cache.filter fun e => e.tag != num) = cache.filter fun e => decide (e.tag ≠ num) :=
    List.filter_congr fun e _ => by simp [bne, beq_eq_decide]
  have all : (cache.filter fun e => e.tag != num).length = cache.length ↔ ∀ e ∈ cache, e.tag ≠ num := by
    simp [List.length_filter_eq_length_iff]
  rw [roomFor, others]
  exact if_congr (by rw [← others, all]; exact and_comm) rfl rfl

section
variable {num : Byte} {cache : List CacheEntry}

theorem roomFor_replaced (h : ∃ e ∈ cache, e.tag = num) : roomFor num cache = cache.filter fun e => decide (e.tag ≠ num) := by
  obtain ⟨e, he, ht⟩ := h
  rw [roomFor_eq, if_neg fun k => k.2 e he ht]

theorem roomFor_new (h : ∀ e ∈ cache, e.tag ≠ num) (room : cache.length < 8) : roomFor num cache = cache := by
  rw [roomFor_eq, if_neg fun k => Nat.not_le.mpr room k.1]
  exact List.filter_eq_self.mpr fun e he => decide_eq_true (h e he)

theorem roomFor_full (h : ∀ e ∈ cache, e.tag ≠ num) (full : 8 ≤ cache.length) : roomFor num cache = cache.drop 1 := by
  rw [roomFor_eq, if_pos ⟨full, h⟩]
  exact congrArg (List.drop 1) (List.filter_eq_self.mpr fun e he => decide_eq_true (h e he))

end

/-- The cache after a reply (R162). -/
def Link.cacheAfter (l : Link) (num code : Byte) (f body : List Byte) : List CacheEntry :=
  if num = 0 ∨ code = Request.linkOpen.code ∨ isFullReset code f then l.cache
  else roomFor num l.cache ++ [{ tag := num, code := code, scope := scopeOf code f, body := body }]

theorem Link.record_cacheAfter (l : Link) (num code : Byte) (f body : List Byte) :
    l.record num code f body = { l with cache := l.cacheAfter num code f body } := by
  unfold Link.record Link.cacheAfter
  split <;> rfl

/-- The reply of a request: it is pending, and recorded (R162, R163). -/
theorem State.reply_eq (s : State) (num code : Byte) (f : List Byte) (a : Answer) :
    s.reply num code f a =
      { s with
        link :=
          { s.link with
            replies :=
              s.link.replies ++ [{ num := num, body := replyBody code a, full := isFullReset code f && a.status == .ok }]
            cache := s.link.cacheAfter num code f (replyBody code a) } } :=
  congrArg (fun l => { s with link := l }) (Link.record_cacheAfter _ num code f _)

/-! ### An answered request -/

/-- With replies pending, no report is begun. -/
theorem State.chooseFrame_reports {s : State} (h : s.link.replies ≠ []) : s.chooseFrame.reports = s.reports := by
  obtain e | ⟨p, rest, -, -, e⟩ | ⟨k, r, -, noReply, -⟩ := chooseFrame_cases s
  · rw [e]
  · rw [e]
  · exact absurd noReply h

/-- Settles O12: the reply and its record, read off what the link holds before the next frame is chosen. -/
theorem answerIsSentAndRecorded : Obligations.AnswerIsSentAndRecorded := by
  intro s r num f a t body recorded entry
  have full : (isFullReset r.code f && a.status == .ok) =
      decide (r = .systemReset ∧ f.head? = some 1 ∧ a.status = .ok) := by
    rw [Bool.eq_iff_iff, Bool.and_eq_true, isFullReset_iff, beq_iff_eq, decide_eq_true_iff, and_assoc]
  let u := s.heard.reply num r.code f a
  have replied : u = _ := s.heard.reply_eq num r.code f a
  rw [full] at replied
  have pending : u.link.replies ≠ [] := by
    rw [replied]
    exact List.append_ne_nil_of_right_ne_nil _ (List.cons_ne_nil _ _)
  obtain ⟨x, link⟩ : ∃ x, t.link = { u.link with transmitter := x } := chooseFrame_link u
  have cache : t.link.cache = s.link.cacheAfter num r.code f body := by rw [link, replied]; rfl
  have unrecorded : (num = 0 ∨ r.code = Request.linkOpen.code ∨ isFullReset r.code f = true) ↔ ¬recorded := by
    rw [Request.code_inj, isFullReset_iff, not_and_or, not_and_or, not_not, not_not, not_not]
  have new : recorded → t.link.cache = roomFor num s.link.cache ++ [entry] := fun h => by
    rw [cache, Link.cacheAfter, if_neg fun k => unrecorded.mp k h, scopeOf_request]
  refine ⟨by rw [link, replied]; rfl, by rw [link, replied]; rfl,
    fun h => by rw [cache, Link.cacheAfter, if_pos (unrecorded.mpr h)],
    fun h old => by rw [new h, roomFor_replaced old], fun h fresh room => by rw [new h, roomFor_new fresh room],
    fun h fresh full => by rw [new h, roomFor_full fresh full.ge], fun hr idle noReply => ?begun, fun busy => ?busy,
    (State.chooseFrame_reports pending).trans (by rw [replied]; rfl), ?others⟩
  case begun =>
    have first : u.link.replies =
        [{ num := num, body := body, full := decide (r = .systemReset ∧ f.head? = some 1 ∧ a.status = .ok) }] := by
      rw [replied]
      exact congrArg (· ++ _) noReply
    have begun : t = _ := State.chooseFrame_reply (s := u) (by rw [replied]; exact idle) (by rw [replied]; exact hr) first
    rw [begun]
    rfl
  case busy =>
    have same : t = u := State.chooseFrame_busy (s := u) (by rw [replied]; exact busy)
    rw [same, replied]
    rfl
  case others => simp [t, State.answered, State.heard]

end Sys2Proof.Machine
end

section
/-! The tables of the request checks (11.3, 11.6) against the model's tests, and the order of the common checks (R186 to
R188). -/

namespace Sys2Proof.Machine

/-! ### Reading a field (R185) -/

theorem fieldValue_succ {f : List Byte} {o n : Nat} (h : o + n < f.length) :
    fieldValue f o (n + 1) = 256 * fieldValue f o n + (u8 f (o + n)).toNat := by
  have at_n : (f.drop o)[n]? = some (u8 f (o + n)) := by
    rw [List.getElem?_drop, u8, List.getD_eq_getElem?_getD, List.getElem?_eq_getElem h]
    rfl
  simp only [fieldValue, List.take_add_one, at_n, List.foldl_append, Option.toList_some, List.foldl_cons, List.foldl_nil]

theorem fieldValue_byte (f : List Byte) (o : Nat) : fieldValue f o 1 = (u8 f o).toNat := by
  by_cases h : o + 0 < f.length
  · simpa [fieldValue] using fieldValue_succ h
  · have off : f.length ≤ o := by omega
    simp [fieldValue, u8, off, List.drop_eq_nil_of_le]

theorem toNat_append {v w : Nat} (hi : BitVec v) (lo : BitVec w) : (hi ++ lo).toNat = 2 ^ w * hi.toNat + lo.toNat := by
  rw [BitVec.toNat_append, ← Nat.shiftLeft_add_eq_or_of_lt lo.isLt, Nat.shiftLeft_eq, Nat.mul_comm]

theorem fieldValue_half {f : List Byte} {o : Nat} (h : o + 2 ≤ f.length) : fieldValue f o 2 = (u16 f o).toNat := by
  rw [fieldValue_succ (n := 1) (by omega), fieldValue_byte, u16, toNat_append]
  rfl

theorem fieldValue_word {f : List Byte} {o : Nat} (h : o + 4 ≤ f.length) : fieldValue f o 4 = (u32 f o).toNat := by
  rw [fieldValue_succ (n := 3) (by omega), fieldValue_succ (n := 2) (by omega), fieldValue_half (by omega), u32, toNat_append]
  simp only [u16, toNat_append, show o + 2 + 1 = o + 3 from rfl]
  omega

/-! ### A field's row and its test (R188, 11.6) -/

section
variable {f : List Byte} {i o lo hi : Nat} {tested : Bool}

theorem fails_byte : FieldRow.fails f ⟨i, o, 1, lo, hi, tested⟩ = (tested && !within lo hi (u8 f o).toNat) := by
  rw [FieldRow.fails, fieldValue_byte, within_eq]

theorem fails_half (h : o + 2 ≤ f.length) :
    FieldRow.fails f ⟨i, o, 2, lo, hi, tested⟩ = (tested && !within lo hi (u16 f o).toNat) := by
  rw [FieldRow.fails, fieldValue_half h, within_eq]

theorem fails_word (h : o + 4 ≤ f.length) :
    FieldRow.fails f ⟨i, o, 4, lo, hi, tested⟩ = (tested && !within lo hi (u32 f o).toNat) := by
  rw [FieldRow.fails, fieldValue_word h, within_eq]

end

theorem within_zero (hi n : Nat) : within 0 hi n = decide (n ≤ hi) := by simp [within]

theorem within_nonzero (w : Half) : within 1 65535 w.toNat = (w != 0) := by
  have bound := w.isLt
  rw [Bool.eq_iff_iff, within_eq, decide_eq_true_iff, bne_iff_ne, ne_eq, ← BitVec.toNat_inj, BitVec.ofNat_eq_ofNat, BitVec.toNat_ofNat, Nat.zero_mod]
  omega

/-- The first test that fails is of the field of the first row that fails. -/
def Agree (f : List Byte) (tests : List FieldTest) (rows : List FieldRow) : Prop :=
  firstBad tests = (rows.find? fun x => x.fails f).map FieldRow.field

section
variable {f : List Byte} {tests : List FieldTest} {rows : List FieldRow}

theorem flag_eq_testBit (f : List Byte) (i k : Nat) : flag f i k = (u8 f i).toNat.testBit k := rfl

theorem toNat_eq_zero {w : Nat} (x : BitVec w) : x.toNat = 0 ↔ x = 0 := by simp [← BitVec.toNat_inj]

/-- A test is that of this row of its table. -/
def Checks (f : List Byte) (t : FieldTest) (x : FieldRow) : Prop :=
  t.1 = x.field ∧ (!t.2) = x.fails f

section
variable {f : List Byte} {tests : List FieldTest} {rows : List FieldRow}

/-- A field with a group of rows, of which those tested fail exactly where its one test does. -/
theorem agree_group {i : Nat} {good : Bool} {group : List FieldRow} (field : ∀ x ∈ group, x.field = i)
    (same : (!good) = group.any fun x => x.fails f) (rest : good = true → Agree f tests rows) :
    Agree f ((i, good) :: tests) (group ++ rows) := by
  unfold Agree firstBad at *
  rw [List.find?_append]
  cases good with
  | true =>
    have noFailure : group.find? (fun x => x.fails f) = none := by
      simpa using same.symm
    rw [noFailure, Option.none_or, List.find?_cons_of_neg (by simp)]
    exact rest rfl
  | false =>
    obtain ⟨x, found⟩ : ∃ x, group.find? (fun x => x.fails f) = some x := by
      rw [← Option.isSome_iff_exists, List.find?_isSome]
      simpa using same.symm
    rw [found, Option.some_or, List.find?_cons_of_pos (by simp), Option.map_some, Option.map_some,
      field x (List.mem_of_find?_eq_some found)]

/-- A field with one row. -/
theorem agree_cons {t : FieldTest} {x : FieldRow} (same : Checks f t x) (rest : t.2 = true → Agree f tests rows) :
    Agree f (t :: tests) (x :: rows) :=
  agree_group (group := [x]) (by simpa using same.1.symm) (by simpa using same.2) rest

theorem agree_append {pre : List FieldTest} {table : List FieldRow} (same : List.Forall₂ (Checks f) pre table)
    (rest : Agree f tests rows) : Agree f (pre ++ tests) (table ++ rows) := by
  induction same with
  | nil => exact rest
  | cons head _ ih => exact agree_cons head fun _ => ih

theorem agree_rows (same : List.Forall₂ (Checks f) tests rows) : Agree f tests rows := by
  have nothing : Agree f [] [] := rfl
  simpa using agree_append same nothing

end

/-- The fields of CUE.PLAY: the id's one test is that of the row of the cue's kind, for a kind in its range. -/
theorem agree_play {f : List Byte} {o base : Nat} (template : Bool) (len : o + 16 ≤ f.length) :
    Agree f (playTests f o base template) (cueRows f o base template) := by
  simp only [playTests, cueRows, fieldValue_byte]
  refine agree_cons ?tag fun _ => agree_cons ?kind fun kinds =>
    agree_group (group := [_, _, _]) ?field ?id fun _ => agree_rows ?rest
  case tag => simp (disch := omega) [Checks, fails_half, within_nonzero]
  case kind => simp [Checks, fails_byte, within_zero]
  case field => simp
  case id =>
    have kind : (u8 f (o + 2)).toNat ≤ 3 := of_decide_eq_true kinds
    simp only [List.any_cons, List.any_nil, fails_byte]
    generalize (u8 f (o + 2)).toNat = k at kind
    interval_cases k <;> cases template <;> simp [within_zero]
  case rest =>
    simp (disch := omega) [Checks, fails_byte, fails_half, fails_word, within_zero, within_nonzero, bne, beq_eq_decide]

/-- The tests of every request against the rows of its table. -/
theorem tests_agree (r : Request) (f : List Byte) (len : r.lengthOk f = true) : Agree f (r.tests f) (fieldRows r f) := by
  cases r with
  | cuePlay => exact agree_play false (by simp [Request.lengthOk] at len; omega)
  | triggerArm =>
    exact agree_append (by simp [Checks, fails_byte, within_zero]) (agree_play true (by simp [Request.lengthOk] at len; omega))
  | _ =>
    simp only [Request.lengthOk, beq_iff_eq] at len
    simp only [Request.tests, fieldRows, fieldValue_byte]
    refine agree_rows ?_
    simp (disch := omega) [Checks, fails_byte, fails_half, fieldValue_half, within_zero, within_nonzero, flag_eq_testBit,
      toNat_eq_zero, bne, beq_eq_decide]

end

/-- The length of every request's body (R187, 11.3). -/
theorem lengthOk_iff (r : Request) (f : List Byte) : r.lengthOk f = true ↔ lengthFits r f (f.length + 1) := by
  cases r <;> simp [Request.lengthOk, lengthFits, fieldValue_byte]

/-! ### A body of no request (R186 check 1) -/

theorem requestCodes_eq : requestCodes = Request.all.map fun r => r.code.toNat := by decide

theorem Request.ofCode_none {code : Byte} (h : code.toNat ∉ requestCodes) : Request.ofCode code = none := by
  rw [Request.ofCode, List.find?_eq_none]
  intro r hr same
  rw [requestCodes_eq] at h
  exact h (List.mem_map.mpr ⟨r, hr, congrArg BitVec.toNat (beq_iff_eq.mp same)⟩)

theorem Request.code_ne {code : Byte} (h : code.toNat ∉ requestCodes) (r : Request) : code ≠ r.code := by
  rintro rfl
  exact absurd (Request.ofCode_none h) (by simp [r.ofCode_code])

/-- A body that names no request is taken as a request of its first byte, or of 0 (log entry 32). -/
theorem State.takeFrame_unknown (s : State) (num : Byte) {body : List Byte}
    (h : body = [] ∨ (body.headD 0).toNat ∉ requestCodes) :
    s.takeFrame num body = s.take num (body.headD 0) body.tail unknown := by
  cases body with
  | nil => rfl
  | cons code f =>
    have unlisted : Request.ofCode code = none := Request.ofCode_none (h.resolve_left (List.cons_ne_nil _ _))
    simp only [State.takeFrame, unlisted]
    rfl

/-! ### A frame handed over (R161) -/

section
variable {s : State} {num code : Byte} {f : List Byte} {answer : State → State × Answer}

theorem State.takeNow_overrun (full : 2 ≤ s.link.replies.length) :
    s.takeNow num code f answer =
      { s with link := { s.link with silenceCount := 0, overruns := min (s.link.overruns + 1) 65535 } } :=
  if_pos full

theorem State.takeNow_cached {e : CacheEntry} (room : s.link.replies.length < 2) (found : s.link.cached num code f = some e) :
    s.takeNow num code f answer =
      { s with
        link :=
          { s.link with
            silenceCount := 0
            replies := s.link.replies ++ [{ num := num, body := e.body, full := false }] } } := by
  have few : ¬Config.pendingReplyLimit ≤ s.link.replies.length := Nat.not_le.mpr room
  simp only [State.takeNow, if_neg few, found]
  rfl

theorem State.takeNow_fresh (room : s.link.replies.length < 2) (fresh : s.link.cached num code f = none) :
    s.takeNow num code f answer = (answer s.heard).1.reply num code f (answer s.heard).2 := by
  have few : ¬Config.pendingReplyLimit ≤ s.link.replies.length := Nat.not_le.mpr room
  simp only [State.takeNow, if_neg few, fresh]
  rfl

end

theorem cached_none {l : Link} {num code : Byte} {f : List Byte} (scope : scopeOf code f = none)
    (h : num = 0 ∨ ∀ e ∈ l.cache, e.tag ≠ num ∨ e.code ≠ code ∨ e.scope ≠ none) : l.cached num code f = none := by
  rw [Link.cached, ite_eq_left_iff, not_or]
  rintro ⟨tagged, -⟩
  rw [List.find?_eq_none]
  intro e he
  have other := h.resolve_left tagged e he
  simp only [scope, Bool.and_eq_true, beq_iff_eq]
  tauto

/-- The answer to a body that names no request (R186 check 1). -/
theorem State.takeNow_unknown {s : State} {num code : Byte} {f : List Byte} (h : code.toNat ∉ requestCodes)
    (room : s.link.replies.length < 2)
    (fresh : num = 0 ∨ ∀ e ∈ s.link.cache, e.tag ≠ num ∨ e.code ≠ code ∨ e.scope ≠ none) :
    s.takeNow num code f unknown =
      { s with
        link :=
          { s.link with
            silenceCount := 0
            replies := s.link.replies ++ [{ num := num, body := [code, 0x01], full := false }]
            cache :=
              if num = 0 then s.link.cache
              else roomFor num s.link.cache ++ [{ tag := num, code := code, scope := none, body := [code, 0x01] }] } } := by
  have scope : scopeOf code f = none := if_neg (Request.code_ne h _)
  have full : isFullReset code f = false := by rw [isFullReset, scope]; rfl
  rw [State.takeNow_fresh room (cached_none scope fresh), State.reply_eq, Link.cacheAfter, full, scope]
  simp only [Request.code_ne h, Bool.false_eq_true, or_false]
  rfl

/-! ### The checks in order (R186) -/

section
variable {r : Request} {f : List Byte} {session : Session}

theorem Request.check_length (h : r.lengthOk f = false) : r.check session f = some (refuse .badLength) := by
  simp [Request.check, h]

theorem Request.check_param {i : Nat} (len : r.lengthOk f = true) (bad : firstBad (r.tests f) = some i) :
    r.check session f = some (badParam i) := by
  simp [Request.check, len, bad]

theorem Request.check_session (len : r.lengthOk f = true) (good : firstBad (r.tests f) = none) (notOpen : r ≠ .linkOpen)
    (notStatus : r ≠ .status) :
    r.check .closed f = some (refuse .notOpen) ∧ r.check .stalled f = some (refuse .stalled) := by
  simp [Request.check, len, good, Request.anySession, notOpen, notStatus]

end

/-- Settles O10: each check is the model's test read off the tables, and a refusal is an answer at the part as it stands. -/
theorem commonChecksRefuse : Obligations.CommonChecksRefuse := by
  refine ⟨fun s num body => ?unknown, fun r f => ⟨lengthOk_iff r f, tests_agree r f⟩, fun s c r num f hq ht => ?checks⟩
  case unknown =>
    intro code reply others kept nameless silent early room fresh
    have unlisted : code.toNat ∉ requestCodes := by
      obtain rfl | h := nameless
      · decide
      · exact h
    rw [s.takeFrame_unknown num nameless, State.take, linkFirst_idle s silent early, State.takeNow_unknown unlisted room fresh,
      roomFor_eq]
  case checks =>
    have refused (a : Answer) (h : r.check s.link.session f = some a) : exec c s = .next (s.answered r num f a) := by
      rw [exec_request c s r num f hq, request_refused s r num f a ht h]
    refine ⟨fun len => refused _ (Request.check_length len), fun i len bad => refused _ (Request.check_param len bad),
      fun len good notOpen notStatus => ?_⟩
    obtain ⟨closed, stalled⟩ := Request.check_session len good notOpen notStatus
    exact ⟨fun h => refused _ (h ▸ closed), fun h => refused _ (h ▸ stalled)⟩

end Sys2Proof.Machine
end

section
/-! No request moves the part into or out of reset, so that what an advance has made due is taken at a running part (R172). -/

namespace Sys2Proof.Machine

/-! ### Requests leave the reset pin alone (R172) -/

/-- The part is in reset as it was: no update of `Closed` touches it. -/
theorem closed_inReset (x : Bool) : Closed fun t => t.inReset = x where
  offer _ _ h := h
  sched _ _ h := h
  passes _ _ h := h
  putVoice _ _ _ h := by simpa using h
  refUp _ _ h := h
  refDown _ _ h := h
  stream _ _ _ _ h := h
  useHead _ _ _ _ _ _ _ h := h
  closeStream _ _ h := by simpa using h
  triggers _ _ h := h

theorem ownMapWrite_inReset (f : List Byte) (s : State) : (ownMapWrite f s).1.inReset = s.inReset := by
  unfold ownMapWrite
  dsimp only
  split
  · rfl
  · split <;> rfl

theorem ownMapRead_state (f : List Byte) (s : State) : (ownMapRead f s).1 = s := by
  unfold ownMapRead
  dsimp only
  split <;> rfl

theorem ownData_inReset (f : List Byte) (s : State) : (ownData f s).1.inReset = s.inReset := by
  unfold ownData
  dsimp only
  split
  · rfl
  split
  · rfl
  split
  · rfl
  split
  · split
    · rfl
    · exact (closed_inReset s.inReset).storeBlock s _ _ _ rfl fun _ _ _ => rfl
  · split <;> rfl

theorem own_inReset (r : Request) (f : List Byte) (s : State) : (r.own f s).1.inReset = s.inReset := by
  have c := closed_inReset s.inReset
  cases r with
  | systemReset => exact c.ownReset f s rfl
  | reportAck => obtain ⟨x, e⟩ := ownAck_writes f s; exact (congrArg State.inReset e).trans rfl
  | cuePlay => exact c.ownPlay f s rfl
  | cueStop => exact c.ownStop f s rfl
  | cueCut => exact c.ownCut f s rfl
  | cueAdjust => exact c.ownAdjust f s rfl
  | cueQuery => exact Closed.ownQuery (P := fun t => t.inReset = s.inReset) f s rfl
  | phraseBegin => obtain ⟨x, e⟩ := ownBegin_writes f s; exact (congrArg State.inReset e).trans rfl
  | phraseAdd => obtain ⟨x, e⟩ := ownAdd_writes f s; exact (congrArg State.inReset e).trans rfl
  | phraseEnd => obtain ⟨x, e⟩ := ownEnd_writes f s; exact (congrArg State.inReset e).trans rfl
  | phraseDrop => obtain ⟨x, e⟩ := ownDrop_writes f s; exact (congrArg State.inReset e).trans rfl
  | mapWrite => exact ownMapWrite_inReset f s
  | mapRead => exact congrArg State.inReset (ownMapRead_state f s)
  | mapRestore => simp only [Request.own, ownMapRestore]
  | outputSet => exact congrArg (fun x => x.1.inReset) (ownOutputSet_eq f s)
  | streamOpen => obtain ⟨x, e⟩ := ownOpen_writes f s; exact (congrArg State.inReset e).trans rfl
  | streamData => exact ownData_inReset f s
  | streamEnd => exact c.ownStreamEnd f s rfl
  | streamAbort => exact c.ownAbort f s rfl
  | triggerArm => exact c.ownArm f s rfl
  | triggerDisarm => exact c.ownDisarm f s rfl
  | _ => rfl

theorem first_inReset (s : State) (due : Bool) {event : State → State} (h : (event s).inReset = s.inReset) :
    (s.first due event).inReset = s.inReset := by
  unfold State.first
  split
  · rw [State.chooseFrame_inReset, h]
  · rfl

theorem takeBeat_inReset (s : State) : s.takeBeat.inReset = s.inReset := by
  have c := closed_inReset s.inReset
  unfold State.takeBeat
  split
  · exact c.deliverBeat _ rfl
  · refine c.deliverBeat _ ?_
    dsimp only
    split <;> rfl
  · rfl

theorem takeLoss_inReset (s : State) : s.takeLoss.inReset = s.inReset := by
  unfold State.takeLoss
  split <;> rfl

theorem ownerFirst_inReset (s : State) (r : Request) (f : List Byte) : (s.ownerFirst r f).inReset = s.inReset := by
  have beat : s.beatFirst.inReset = s.inReset :=
    (first_inReset _ _ (takeLoss_inReset _)).trans (first_inReset _ _ (takeBeat_inReset s))
  have limit : (s.limitFirst (u8 f 0)).inReset = s.inReset := by
    unfold State.limitFirst
    split
    · exact first_inReset _ _ ((closed_inReset s.inReset).starveLimit _ _ rfl)
    · rfl
  cases r with
  | clockSet => exact beat
  | clockBar => exact beat
  | clockRead => exact beat
  | streamData => exact limit
  | streamEnd => exact limit
  | _ => rfl

theorem carried_inReset (r : Request) (f : List Byte) (s : State) : (r.carried f s).1.inReset = s.inReset :=
  (own_inReset r f _).trans (ownerFirst_inReset s r f)

theorem checked_inReset (r : Request) (f : List Byte) (s : State) : (checked r r.carried f s).1.inReset = s.inReset := by
  unfold checked
  split
  · rfl
  · exact carried_inReset r f s

theorem stall_inReset (s : State) : s.stall.inReset = s.inReset := by
  unfold State.stall
  split
  · exact (closed_inReset s.inReset).quietAll _ _ rfl
  · rfl

theorem silence_inReset (s : State) : s.silence.inReset = s.inReset := by
  unfold State.silence
  split
  · exact stall_inReset s
  · rfl

theorem retransmit_inReset (s : State) : s.retransmit.inReset = s.inReset := by
  unfold State.retransmit
  split
  · split
    · rfl
    · exact stall_inReset s
  · rfl

theorem linkFirst_inReset (s : State) : s.linkFirst.inReset = s.inReset :=
  (first_inReset _ _ (retransmit_inReset _)).trans (first_inReset _ _ (silence_inReset s))

theorem take_inReset (s : State) (num code : Byte) (f : List Byte) {answer : State → State × Answer}
    (h : ∀ s, (answer s).1.inReset = s.inReset) : (s.take num code f answer).inReset = s.inReset := by
  rw [← linkFirst_inReset s, State.take]
  unfold State.takeNow
  dsimp only
  split
  · rfl
  split
  · rfl
  · exact h _

theorem takeFrame_inReset (s : State) (num : Byte) (body : List Byte) : (s.takeFrame num body).inReset = s.inReset := by
  unfold State.takeFrame
  split
  · exact take_inReset s _ _ _ fun _ => rfl
  split
  · exact take_inReset s _ _ _ (checked_inReset _ _)
  · exact take_inReset s _ _ _ fun _ => rfl

theorem receive_inReset (a : Bool) (n : Nat) (held input : List Byte) (s : State) :
    (State.receive a n held input s).inReset = s.inReset := by
  induction n generalizing held input s with
  | zero => rfl
  | succ n ih =>
    cases input with
    | nil =>
      cases held with
      | nil => rfl
      | cons b rest =>
        simp only [State.receive]
        split
        · exact ih _ _ _
        · rfl
    | cons b input =>
      simp only [State.receive]
      split
      · split <;> exact ih _ _ _
      split
      · exact ih _ _ _
      · exact ih _ _ _
      · exact (ih _ _ _).trans (takeFrame_inReset s _ _)

theorem abandonFrame_inReset (s : State) : s.abandonFrame.inReset = s.inReset := by
  unfold State.abandonFrame State.discardFrame
  split
  · split
    · rfl
    · exact receive_inReset _ _ _ _ _
  · rfl

theorem caughtUp_inReset (s : State) : s.caughtUp.inReset = s.inReset :=
  (linkFirst_inReset _).trans (abandonFrame_inReset s)

end Sys2Proof.Machine
end

section
/-! A report not yet sent has its frame due, whatever the part does (R176, R179, R181). -/

namespace Sys2Proof.Machine

/-- The report was sent, or its frame is due. -/
def Report.Waits (r : Report) : Prop :=
  r.sent = false → r.frameDue = true

def ReportUnit.Waits (u : ReportUnit) : Prop :=
  ∀ r ∈ u.queue, r.Waits

theorem Report.Waits.countUp {r : Report} (h : r.Waits) : r.countUp.Waits := by
  unfold Report.countUp
  split <;> exact h

theorem Report.Waits.lineEnded {r : Report} (h : r.Waits) (now : Tick) : (r.lineEnded now).Waits := by
  unfold Report.lineEnded
  split <;> exact h

theorem Report.Waits.goBack {r : Report} (h : r.Waits) : r.goBack.Waits := by
  unfold Report.goBack
  split
  · exact fun _ => rfl
  · exact h

theorem Report.handed_waits (r : Report) : r.handed.Waits := fun h => Bool.noConfusion h

theorem ReportUnit.handOver_handed {u : ReportUnit} {k : Nat} {r : Report} (h : u.handOver = some (k, r)) :
    ∃ q : Report, r = q.handed := by
  obtain ⟨j, -, e⟩ := Option.bind_eq_some_iff.mp h
  obtain ⟨q, -, e⟩ := Option.map_eq_some_iff.mp e
  obtain ⟨-, rfl⟩ := Prod.mk.inj e
  exact ⟨q, rfl⟩

section
variable {u : ReportUnit} (h : u.Waits)
include h

theorem ReportUnit.Waits.append (k : ReportKind) (now : Tick) : (u.append k now).Waits := by
  intro r hr
  obtain old | new := List.mem_append.mp hr
  · exact h r old
  · rw [List.mem_singleton.mp new]
    exact fun _ => rfl

theorem ReportUnit.Waits.offer (k : ReportKind) (now : Tick) : (u.offer k now).Waits := by
  unfold ReportUnit.offer
  split
  · unfold ReportUnit.takeIn
    split
    · exact h.append _ _
    split
    · intro r hr
      obtain old | new := List.mem_append.mp hr
      · exact h r (List.mem_of_mem_dropLast old)
      · obtain ⟨q, last, rfl⟩ := Option.map_eq_some_iff.mp (Option.mem_toList.mp new)
        exact (h q (List.mem_of_getLast? last)).countUp
    · split
      · exact h.append _ _
      · exact h
  · exact h

theorem ReportUnit.Waits.map {g : Report → Report} (hg : ∀ r, r.Waits → (g r).Waits) : Waits { u with queue := u.queue.map g } := by
  intro r hr
  obtain ⟨q, hq, rfl⟩ := List.mem_map.mp hr
  exact hg q (h q hq)

theorem ReportUnit.Waits.handOver (k : Nat) {r : Report} (e : u.handOver = some (k, r)) :
    Waits { u with queue := u.queue.set k r } := by
  intro q hq
  obtain old | rfl := List.mem_or_eq_of_mem_set hq
  · exact h q old
  · obtain ⟨q, rfl⟩ := ReportUnit.handOver_handed e
    exact q.handed_waits

end

theorem ReportUnit.renumber_waits (u : ReportUnit) : u.renumber.Waits := by
  intro r hr
  obtain ⟨k, hk, rfl⟩ := List.mem_mapIdx.mp hr
  exact fun _ => rfl

theorem ownAck_waits {s : State} (h : s.reports.Waits) (f : List Byte) : (ownAck f s).1.reports.Waits := by
  unfold ownAck
  dsimp only
  split
  · exact fun r hr => h r (List.mem_of_mem_drop hr)
  · split <;> exact h

theorem chooseFrame_waits {s : State} (h : s.reports.Waits) : s.chooseFrame.reports.Waits := by
  obtain e | ⟨p, rest, -, -, e⟩ | ⟨k, r, -, -, -, -, -, begun, e⟩ := chooseFrame_cases s <;> rw [e]
  · exact h
  · exact h
  · exact h.handOver k begun

theorem reportSent_waits {s : State} (h : s.reports.Waits) : s.reportSent.reports.Waits := by
  unfold State.reportSent
  split
  · exact h.map fun r hr => hr.lineEnded s.now
  · exact h

theorem afterReset_waits : ReportUnit.afterReset.Waits := fun _ hr => absurd hr List.not_mem_nil

/-- Each update of a command keeps it: a report is appended with its frame due, and handed over as it is sent. -/
theorem kept_waits : Kept fun s => s.reports.Waits where
  offer s k h := h.offer k s.now
  sched _ _ h := h
  passes _ _ h := h
  putVoice _ _ _ h := by rw [State.putVoice_reports]; exact h
  refUp _ _ h := h
  refDown _ _ h := h
  stream _ _ _ _ h := h
  useHead _ _ _ _ _ _ _ h := h
  closeStream s i h := by
    unfold State.closeStream State.credit
    split
    · split
      · exact h.offer _ _
      · exact h
    · exact h
  triggers _ _ h := h
  chooseFrame _ h := chooseFrame_waits h
  replyLeft _ h := h
  reportSent _ h := reportSent_waits h
  hold _ _ h := h
  countDiscard _ h := h
  gapZero _ h := h
  heard _ h := h
  overrun _ h := h
  again _ _ _ _ _ _ _ h := h
  reply _ _ _ _ _ _ h := h
  stalled _ h := h
  goBack _ _ h := h.map fun _ => Report.Waits.goBack
  internalEdge _ _ h := h
  syncEdge _ _ h := h
  move _ h := h
  loss _ _ h := h
  duckMove _ h := h
  output _ _ h := h
  clockVoices _ h := h
  advanced _ _ h := h
  powerOn _ _ := afterReset_waits
  resetKept _ _ _ _ := afterReset_waits
  softAtReplyEnd _ _ := afterReset_waits
  sampleStraps _ _ h := h
  takeReset _ _ := fun _ hr => absurd hr List.not_mem_nil
  pending _ _ h := h
  linkOpen _ s _ _ := s.reports.renumber_waits
  select _ _ h := h
  ack f _ h := ownAck_waits h f
  begin f s h := by obtain ⟨x, e⟩ := ownBegin_writes f s; rw [e]; exact h
  add f s h := by obtain ⟨x, e⟩ := ownAdd_writes f s; rw [e]; exact h
  finish f s h := by obtain ⟨x, e⟩ := ownEnd_writes f s; rw [e]; exact h
  drop f s h := by obtain ⟨x, e⟩ := ownDrop_writes f s; rw [e]; exact h
  mapWrite f s h := by
    unfold ownMapWrite
    dsimp only
    split
    · exact h
    · split <;> exact h
  mapRestore _ _ h := by unfold ownMapRestore; exact h
  outputSet f s _ h := by rw [ownOutputSet_eq]; exact h
  timeSet _ _ _ _ h := h
  barRestart _ h := h
  open_ f s _ h := by obtain ⟨x, e⟩ := ownOpen_writes f s; rw [e]; exact h
  stock _ _ _ _ _ _ _ _ _ _ h := h

end Sys2Proof.Machine
end

section
/-! What an advance has made due, taken before a request (R159, R167, R170, R179, R183): once it is taken, nothing is due. -/

namespace Sys2Proof.Machine

/-! ### The stall and the go-back (R167, R168, R179) -/

section
variable {s : State}

theorem stall_link (s : State) : s.stall.link = { s.link with session := .stalled } := by
  unfold State.stall
  split
  · exact (closed_link _).quietAll _ _ rfl
  · rfl

theorem silenceDue_closed (h : s.link.session ≠ .opened) : s.link.silenceDue = false :=
  Bool.eq_false_iff.mpr fun due => h (s.link.silenceDue_iff.mp due).1

theorem timerDue_closed (h : s.link.session ≠ .opened) : s.timerDue = false :=
  Bool.eq_false_iff.mpr fun due => h (s.timerDue_iff.mp due).1

theorem linkFirst_silent (h : s.link.silenceDue = true) : s.linkFirst = s.stall.chooseFrame := by
  have stalled : s.stall.chooseFrame.link.session ≠ .opened := by
    obtain ⟨x, e⟩ := chooseFrame_link s.stall
    rw [e, stall_link]
    exact Session.noConfusion
  simp [State.linkFirst, State.first, State.silence, h, timerDue_closed stalled]

theorem linkFirst_gives_up (silent : s.link.silenceDue = false) (due : s.timerDue = true) (h : 3 ≤ s.reports.retry) :
    s.linkFirst = s.stall.chooseFrame := by
  simp [State.linkFirst, State.first, State.retransmit, silent, due, Config.maxRetries, Nat.not_lt.mpr h]

theorem linkFirst_goes_back (silent : s.link.silenceDue = false) (due : s.timerDue = true) (h : s.reports.retry < 3) :
    s.linkFirst = State.chooseFrame { s with reports := s.reports.goBack } := by
  simp [State.linkFirst, State.first, State.retransmit, silent, due, Config.maxRetries, h]

theorem Report.Waits.goBack_due {r : Report} (h : r.Waits) : r.goBack.frameDue = true := by
  unfold Report.goBack
  split
  · rfl
  · exact h (Bool.eq_false_iff.mpr ‹_›)

/-- Once the reports have gone back, the head's frame is due, so that the timer is not reached. -/
theorem goBack_not_expired {u : ReportUnit} (h : u.Waits) (now : Tick) : ¬u.goBack.Expired now := by
  rintro ⟨r, rest, t, hq, notDue, -⟩
  have head : r ∈ u.queue.map Report.goBack := by
    rw [show u.queue.map Report.goBack = r :: rest from hq]
    exact List.mem_cons_self
  obtain ⟨q, hm, rfl⟩ := List.mem_map.mp head
  exact Bool.false_ne_true (notDue.symm.trans (h q hm).goBack_due)

/-- The head on the line or not, handing a report over leaves the timer as it was, or stops it. -/
theorem handOver_expired {u : ReportUnit} {k : Nat} {r : Report} (begun : u.handOver = some (k, r)) {now : Tick}
    (h : ReportUnit.Expired { u with queue := u.queue.set k r } now) : u.Expired now := by
  obtain ⟨q, rfl⟩ := ReportUnit.handOver_handed begun
  obtain ⟨head, rest, t, hq, expired⟩ := h
  cases queue : u.queue with
  | nil => simp [queue] at hq
  | cons first later =>
    rw [queue] at hq
    cases k with
    | zero =>
      obtain ⟨rfl, -⟩ := List.cons.inj hq
      exact absurd expired.2.1 Bool.noConfusion
    | succ k =>
      obtain ⟨rfl, -⟩ := List.cons.inj hq
      exact ⟨_, _, t, queue, expired⟩

/-- The choice of a frame brings nothing due: a head begun is on the line. -/
theorem chooseFrame_timerDue (h : s.timerDue = false) : s.chooseFrame.timerDue = false := by
  obtain e | ⟨p, rest, -, -, e⟩ | ⟨k, r, -, -, opened, -, -, begun, e⟩ := chooseFrame_cases s
  · rw [e, h]
  · rw [e]; exact h
  · refine Bool.eq_false_iff.mpr fun due => Bool.eq_false_iff.mp h (s.timerDue_iff.mpr ⟨opened, ?_⟩)
    rw [e, State.timerDue_iff] at due
    exact handOver_expired begun due.2

theorem linkFirst_settled (h : s.reports.Waits) : s.linkFirst.link.silenceDue = false ∧ s.linkFirst.timerDue = false := by
  have stalled : s.stall.chooseFrame.link.session ≠ .opened := by
    obtain ⟨x, e⟩ := chooseFrame_link s.stall
    rw [e, stall_link]
    exact Session.noConfusion
  cases silent : s.link.silenceDue with
  | true =>
    rw [linkFirst_silent silent]
    exact ⟨silenceDue_closed stalled, timerDue_closed stalled⟩
  | false =>
  cases due : s.timerDue with
  | false =>
    rw [linkFirst_idle s silent due]
    exact ⟨silent, due⟩
  | true =>
  rcases Nat.lt_or_ge s.reports.retry 3 with few | many
  · rw [linkFirst_goes_back silent due few]
    obtain ⟨x, e⟩ := chooseFrame_link { s with reports := s.reports.goBack }
    refine ⟨by rw [e]; exact silent, chooseFrame_timerDue (Bool.eq_false_iff.mpr fun expired => ?_)⟩
    exact goBack_not_expired h s.now ((State.timerDue_iff _).mp expired).2
  · rw [linkFirst_gives_up silent due many]
    exact ⟨silenceDue_closed stalled, timerDue_closed stalled⟩

end

/-! ### The part caught up (R159, R167, R170, R183) -/

section
variable {s : State}

theorem linkFirst_receiver (s : State) : s.linkFirst.link.receiver = s.link.receiver := by
  have began (t : State) : t.chooseFrame.link.receiver = t.link.receiver := by
    obtain ⟨x, e⟩ := chooseFrame_link t
    rw [e]
  have stalled : s.stall.chooseFrame.link.receiver = s.link.receiver := by rw [began, stall_link]
  cases silent : s.link.silenceDue with
  | true => rw [linkFirst_silent silent, stalled]
  | false =>
  cases due : s.timerDue with
  | false => rw [linkFirst_idle s silent due]
  | true =>
  rcases Nat.lt_or_ge s.reports.retry 3 with few | many
  · rw [linkFirst_goes_back silent due few, began]
  · rw [linkFirst_gives_up silent due many, stalled]

theorem caughtUp_not_overdue (h : s.reports.Waits) : s.caughtUp.overdue = false := by
  obtain ⟨silent, early⟩ := linkFirst_settled (kept_waits.abandonFrame s h)
  have hunting : s.caughtUp.link.abandonDue = false := by
    rw [State.caughtUp, Link.abandonDue, linkFirst_receiver]
    exact s.abandonFrame_not_due
  exact Bool.or_eq_false_iff.mpr ⟨Bool.or_eq_false_iff.mpr ⟨hunting, silent⟩, early⟩

/-- A request is taken at the part caught up. -/
theorem exec_caughtUp {c : Instr} {r : Request} {num : Byte} {f : List Byte} (hq : requestOf c = some (r, num, f))
    (hr : s.inReset = false) :
    exec c s = .next (s.caughtUp.takeNow num r.code f (checked r r.carried f)).chooseFrame :=
  (exec_request c s r num f hq).trans (State.act_running hr _)

theorem caughtUp_stalled (hunting : s.link.abandonDue = false)
    (h : s.link.silenceDue = true ∨ s.timerDue = true ∧ s.reports.retry = 3) : s.caughtUp.link.session = .stalled := by
  have stalled : s.linkFirst = s.stall.chooseFrame := by
    cases silent : s.link.silenceDue with
    | true => exact linkFirst_silent silent
    | false =>
      obtain ⟨due, retry⟩ := h.resolve_left (by simp [silent])
      exact linkFirst_gives_up silent due retry.ge
  obtain ⟨x, e⟩ := chooseFrame_link s.stall
  rw [State.caughtUp, abandonFrame_idle s hunting, stalled, e, stall_link]

/-- Reports sent back on an idle TXD are begun at once, the head first (R164). -/
theorem caughtUp_begins_report (h : s.reports.Waits) (hr : s.inReset = false) (hunting : s.link.abandonDue = false)
    (silent : s.link.silenceDue = false) (due : s.timerDue = true) (few : s.reports.retry < 3)
    (idle : s.link.transmitter = .idle) (noReply : s.link.replies = []) :
    ∃ bytes, s.caughtUp.link.transmitter = .report bytes := by
  obtain ⟨opened, first, rest, t, hq, -⟩ := s.timerDue_iff.mp due
  let back : State := { s with reports := s.reports.goBack }
  have head : back.reports.queue[0]? = some first.goBack := by simp [back, ReportUnit.goBack, hq]
  have waits : first.Waits := h first (hq ▸ List.mem_cons_self)
  have early : back.timerDue = false :=
    Bool.eq_false_iff.mpr fun expired => goBack_not_expired h s.now ((State.timerDue_iff _).mp expired).2
  have sends := ReportUnit.handOver_first (u := back.reports) (by decide : 0 < 4) head waits.goBack_due
    fun j hj => absurd hj (Nat.not_lt_zero j)
  rw [State.caughtUp, abandonFrame_idle s hunting, linkFirst_goes_back silent due few,
    State.chooseFrame_report (s := back) idle hr noReply ⟨opened, silent, early⟩ sends]
  exact ⟨_, rfl⟩

end

/-- The entry of the request's tag in the reply cache answers it, where its code and scope agree (R161). -/
theorem cached_entry {l : Link} {r : Request} {num : Byte} {f : List Byte} {e : CacheEntry}
    (tags : (l.cache.map CacheEntry.tag).Nodup) (tagged : num ≠ 0) (notOpen : r ≠ .linkOpen) (held : e ∈ l.cache)
    (tag : e.tag = num) (code : e.code = r.code) (scope : e.scope = if r = .systemReset then f.head? else none) :
    l.cached num r.code f = some e := by
  rw [Link.cached, if_neg (not_or.mpr ⟨tagged, fun same => notOpen (Request.code_inj.mp same)⟩), scopeOf_request]
  obtain ⟨q, found⟩ := Option.isSome_iff_exists.mp
    (List.find?_isSome (p := fun e => e.tag == num && e.code == r.code && e.scope == if r = .systemReset then f.head? else none)
      |>.mpr ⟨e, held, by simp [tag, code, scope]⟩)
  have same : q = e := by
    refine List.inj_on_of_nodup_map tags (List.mem_of_find?_eq_some found) held ?_
    have hit := List.find?_some found
    simp only [Bool.and_eq_true, beq_iff_eq] at hit
    rw [hit.1.1, tag]
  rw [found, same]

/-- Settles O11: a request is taken at the part caught up, where nothing is due, and there in the order of R161. -/
theorem overrunAndCacheAnswer : Obligations.OverrunAndCacheAnswer := by
  intro s c r num f hq hr
  have prompt (h : s.overdue = false) :
      exec c s = .next (s.takeNow num r.code f (checked r r.carried f)).chooseFrame := by
    rw [exec_caughtUp hq hr, caughtUp_prompt s h]
  refine ⟨fun due ok => ?overdue, fun h full => ?overrun, fun e h room tags tagged notOpen held tag code scope => ?cached⟩
  case overdue =>
    obtain ⟨-, -, -, -, waits, -⟩ := ok
    have running : s.caughtUp.inReset = false := (caughtUp_inReset s).trans hr
    have settled : s.caughtUp.overdue = false := caughtUp_not_overdue waits
    exact ⟨by rw [exec_caughtUp hq hr, exec_caughtUp hq running, caughtUp_prompt _ settled], settled, running,
      fun hunting => ⟨caughtUp_stalled hunting, caughtUp_begins_report waits hr hunting⟩⟩
  case overrun => rw [prompt h, State.takeNow_overrun full]
  case cached => rw [prompt h, State.takeNow_cached room (cached_entry tags tagged notOpen held tag code scope)]

end Sys2Proof.Machine
end

section
/-! What a piece of a quieting does (R26, R48, R142, R168): it offers CUE_ENDED reports in their order, with one STREAM_CREDIT
where the free count comes to 8, and asks passes; the schedule gets no entry, and the ground is kept. -/

namespace Sys2Proof.Machine

/-! ### A piece of a quieting -/

/-- The reports with these kinds offered at a tick, in their order (R174). -/
def ReportUnit.offers (u : ReportUnit) (kinds : List ReportKind) (now : Tick) : ReportUnit :=
  kinds.foldl (fun u kind => u.offer kind now) u

theorem ReportUnit.offers_append (u : ReportUnit) (l m : List ReportKind) (now : Tick) :
    u.offers (l ++ m) now = (u.offers l now).offers m now :=
  List.foldl_append

/-- The STREAM_CREDIT at a free count, offered where the count has come from `before` to 8 or more at `after` (R134). -/
def creditAt (n before after : Nat) : List ReportKind :=
  if before < 8 ∧ 8 ≤ after then [.streamCredit n] else []

/-- A piece of a quieting, from one state to another: the CUE_ENDED reports it offers, and the passes it asks. -/
structure State.Quiets (s : State) (ended : List ReportKind) (asked : Nat) (t : State) : Prop where
  ground : t.ground = s.ground
  entries : t.sched.entries ⊆ s.sched.entries
  passes : t.alloc.passes = s.alloc.passes + asked
  blocks : t.streams.Ok
  free : s.freeCount ≤ t.freeCount
  reports : ∃ before after n, before ++ after = ended ∧ 8 ≤ n ∧ n ≤ 32 ∧
    t.reports = s.reports.offers (before ++ creditAt n s.freeCount t.freeCount ++ after) s.now

theorem StreamUnit.Ok.free_le {u : StreamUnit} (h : u.Ok) : u.freeBlocks.length ≤ 32 := by
  have all : u.freeBlocks.length + (u.slots.toList.flatMap filledOf).length = 32 :=
    List.length_append.symm.trans h.1.length_eq
  omega

namespace State.Quiets

variable {s t w : State} {ended ended' : List ReportKind} {asked asked' : Nat}

theorem now (h : s.Quiets ended asked t) : t.now = s.now :=
  congrArg TimeBase.tick (time_of_basis (basis_of_ground h.ground))

/-- The credit is offered in the piece that brings the free count to 8. -/
theorem trans (h : s.Quiets ended asked t) (k : t.Quiets ended' asked' w) : s.Quiets (ended ++ ended') (asked + asked') w where
  ground := k.ground.trans h.ground
  entries := List.Subset.trans k.entries h.entries
  passes := by rw [k.passes, h.passes, Nat.add_assoc]
  blocks := k.blocks
  free := h.free.trans k.free
  reports := by
    obtain ⟨before, after, n, rfl, low, high, e⟩ := h.reports
    obtain ⟨before', after', n', rfl, low', high', e'⟩ := k.reports
    have grows := h.free
    have grows' := k.free
    rw [h.now, e, ← ReportUnit.offers_append] at e'
    by_cases first : s.freeCount < 8 ∧ 8 ≤ t.freeCount
    · have once : creditAt n' t.freeCount w.freeCount = [] := if_neg (by omega)
      have here : creditAt n s.freeCount w.freeCount = creditAt n s.freeCount t.freeCount :=
        if_congr (by omega) rfl rfl
      refine ⟨before, after ++ (before' ++ after'), n, by simp, low, high, ?_⟩
      rw [e', once, here]
      simp
    · have early : creditAt n s.freeCount t.freeCount = [] := if_neg first
      have later : creditAt n' s.freeCount w.freeCount = creditAt n' t.freeCount w.freeCount :=
        if_congr (by omega) rfl rfl
      refine ⟨before ++ after ++ before', after', n', by simp, low', high', ?_⟩
      rw [e', early, later]
      simp

/-- A piece that leaves the streams alone offers its reports as they come. -/
theorem of_streams (blocks : s.streams.Ok) (ground : t.ground = s.ground) (entries : t.sched.entries ⊆ s.sched.entries)
    (passes : t.alloc.passes = s.alloc.passes + asked) (streams : t.streams = s.streams)
    (reports : t.reports = s.reports.offers ended s.now) : s.Quiets ended asked t where
  ground := ground
  entries := entries
  passes := passes
  blocks := streams ▸ blocks
  free := (congrArg (fun u => u.freeBlocks.length) streams).ge
  reports := by
    have same : t.freeCount = s.freeCount := congrArg (fun u => u.freeBlocks.length) streams
    have noCredit : creditAt 8 s.freeCount t.freeCount = [] := if_neg (by omega)
    exact ⟨ended, [], 8, by simp, le_rfl, by decide, by rw [noCredit, reports]; simp⟩

theorem refl (h : s.streams.Ok) : s.Quiets [] 0 s :=
  of_streams h rfl (List.Subset.refl _) rfl rfl rfl

theorem closeStream (h : s.streams.Ok) (i : StreamSlotId) : s.Quiets [] 0 (s.closeStream i) := by
  cases ht : s.stream i with
  | none =>
    have same : s.closeStream i = s := by simp only [State.closeStream, ht]
    rw [same]
    exact refl h
  | some t =>
    have ok := closeStream_ok h i
    have most : (s.closeStream i).freeCount ≤ 32 := ok.free_le
    have count : (s.closeStream i).freeCount = s.freeCount + t.filled.length := by
      rw [State.closeStream_eq ht]
      exact List.length_append
    refine ⟨by simp, by simp, by simp, ok, by omega, [], [], max 8 (s.closeStream i).freeCount, rfl, by omega, by omega, ?_⟩
    rw [creditAt, count, State.closeStream_eq ht]
    dsimp only
    split_ifs with comes
    · rw [max_eq_right comes.2]
      rfl
    · rfl

theorem releaseSource (h : s.streams.Ok) (c : Cue) : s.Quiets [] 0 (s.releaseSource c) := by
  unfold State.releaseSource
  split
  · exact of_streams h (s.refDown_ground _) (List.Subset.refl _) rfl rfl rfl
  · exact refl h
  · exact refl h
  · split
    · exact closeStream h _
    · exact refl h

theorem offer (h : s.streams.Ok) (k : ReportKind) : s.Quiets [k] 0 (s.offer k) :=
  of_streams h rfl (List.Subset.refl _) rfl rfl rfl

theorem dropTag (h : s.streams.Ok) (x : Tag) : s.Quiets [] 0 (s.dropTag x) :=
  of_streams h rfl (List.Subset.refl _) rfl rfl rfl

theorem dropEntry (h : s.streams.Ok) (x : Tag) : s.Quiets [] 0 (s.dropEntry x) :=
  of_streams h rfl (List.filter_subset_self _) rfl rfl rfl

theorem putVoice (h : s.streams.Ok) (v : VoiceId) (r : Voice) : s.Quiets [] 0 (s.putVoice v r) :=
  of_streams h (by simp) (by simp) (by simp) (by simp) (by simp; rfl)

theorem askPass (h : s.streams.Ok) : s.Quiets [] 1 s.askPass :=
  of_streams h rfl (List.Subset.refl _) rfl rfl rfl

theorem releaseCall (h : s.streams.Ok) (p : Option Player) : s.Quiets [] 0 (s.releaseCall p) := by
  unfold State.releaseCall
  split
  · exact of_streams h (s.refDown_ground _) (List.Subset.refl _) rfl rfl rfl
  · exact refl h

theorem retire (h : s.streams.Ok) (c : Cue) (reason : EndReason) (v : Option VoiceId) :
    s.Quiets [.cueEnded c.tag reason v] 0 (s.retire c reason v) := by
  have told := offer h (.cueEnded c.tag reason v)
  have left := told.trans (dropTag told.blocks c.tag)
  exact left.trans (releaseSource left.blocks c)

theorem endCurrent (h : s.streams.Ok) {v : VoiceId} {k : Current} (hk : (s.voice v).current = some k) :
    s.Quiets [.cueEnded k.cue.tag (k.cue.endReason.getD .finished) (some v)] 0 (s.endCurrent v) := by
  simp only [State.endCurrent, hk]
  have told := offer h (.cueEnded k.cue.tag (k.cue.endReason.getD .finished) (some v))
  have left := told.trans (dropTag told.blocks k.cue.tag)
  have call := left.trans (releaseCall left.blocks (s.voice v).player)
  exact call.trans (releaseSource call.blocks k.cue)

/-! ### The cues, one by one (R15, R39, R40) -/

theorem removeEntry (h : s.streams.Ok) {e : Entry} {tag : Tag} (found : s.sched.entries.find? (fun x => x.cue.tag == tag) = some e)
    (reason : EndReason) : s.Quiets [.cueEnded e.cue.tag reason none] 0 (s.removeEntry tag reason) := by
  simp only [State.removeEntry, found]
  have left := dropEntry h tag
  exact left.trans (retire left.blocks e.cue reason none)

theorem removeIncoming (h : s.streams.Ok) {v : VoiceId} {c : Cue} (hc : (s.voice v).incoming = some c) (reason : EndReason) :
    s.Quiets [.cueEnded c.tag reason none] 0 (s.removeIncoming v reason) := by
  simp only [State.removeIncoming, hc]
  have left := putVoice h v { s.voice v with state := .ending, incoming := none }
  exact left.trans (retire left.blocks c reason none)

end State.Quiets

/-- The CUE_ENDED of the current cue of a voice in a quieting (R43, R48). -/
def Voice.endKind (v : VoiceId) (reason : EndReason) (r : Voice) : Option ReportKind :=
  r.current.map fun k => ReportKind.cueEnded k.cue.tag (if r.state = .active then reason else k.cue.endReason.getD reason) (some v)

/-- A cue ended at once by an event that is not a CUT: a PLAYING one takes the reason of the event, another keeps its own. -/
theorem Voice.Ok.ending_reason {v : VoiceId} {r : Voice} (ok : r.Ok v) {k : Current} (hk : r.current = some k)
    (hi : r.incoming = none) {reason : EndReason} (notCut : reason ≠ .cut) :
    ∃ j, (r.endingAtOnce reason).current = some j ∧
      some (.cueEnded j.cue.tag (j.cue.endReason.getD .finished) (some v)) = r.endKind v reason := by
  simp only [Voice.endingAtOnce_eq hk, Voice.endKind, hk, notCut, and_false, or_false]
  refine ⟨_, rfl, ?_⟩
  cases hs : r.state with
  | idle => rw [ok.eq_idle hs] at hk; cases hk
  | active => rfl
  | handoff =>
    obtain ⟨-, c, -, hc, -⟩ := ok.of_handoff hs
    rw [hi] at hc
    cases hc
  | ending =>
    have held := (ok.of_ending hs).1
    rw [hk, Option.any_some] at held
    obtain ⟨own, e⟩ := Option.isSome_iff_exists.mp held
    simp [e]

/-- A voice with a current cue alone: its cue ends at once, and it asks a pass (R30, R40). -/
theorem State.Quiets.endAtOnce {s : State} (h : s.streams.Ok) {v : VoiceId} {k : Current} (hk : (s.voice v).current = some k)
    (hi : (s.voice v).incoming = none) (ok : (s.voice v).Ok v) {reason : EndReason} (notCut : reason ≠ .cut) :
    s.Quiets ((s.voice v).endKind v reason).toList 1 (s.endAtOnce v reason) := by
  obtain ⟨j, hj, told⟩ := ok.ending_reason hk hi notCut
  rw [State.endAtOnce_idle reason hk hi, State.vacated, ← told]
  have put := putVoice h v ((s.voice v).endingAtOnce reason)
  have ended := put.trans (endCurrent put.blocks (v := v) (by rwa [State.putVoice_same]))
  have left := ended.trans (putVoice ended.blocks v Voice.idle)
  exact left.trans (askPass left.blocks)

end Sys2Proof.Machine
end

section
/-! A quieting (R26, R48, R142, R154, R168, R169): what its pieces leave, and the statements of SYSTEM.RESET and of the stall. -/

namespace Sys2Proof.Machine

/-! ### The entries, then the incoming cues, then the current ones (R26, R48) -/

/-- The removal of every entry of the schedule. -/
theorem State.Quiets.entries_removed (reason : EndReason) (l : List Entry) {s : State} (hl : s.sched.entries = l)
    (unique : (l.map fun e => e.cue.tag).Nodup) (h : s.streams.Ok) :
    s.Quiets (l.map fun e => .cueEnded e.cue.tag reason none) 0
      ((l.map fun e => e.cue.tag).foldl (fun s t => s.removeEntry t reason) s) := by
  induction l generalizing s with
  | nil => exact .refl h
  | cons e l ih =>
    obtain ⟨new, unique⟩ := List.nodup_cons.mp unique
    have other : ∀ x ∈ [] ++ l, x.cue.tag ≠ e.cue.tag := fun x hx same => new (List.mem_map.mpr ⟨x, hx, same⟩)
    have found : s.sched.entries.find? (fun x => x.cue.tag == e.cue.tag) = some e := hl ▸ find_entry other
    have rest : (s.removeEntry e.cue.tag reason).sched.entries = l := by
      rw [(s.removeEntry_spec e.cue.tag reason).2.2.1, hl]
      exact drop_entry other
    have first := removeEntry h found reason
    simpa using first.trans (ih rest unique first.blocks)

section
variable {f : State → VoiceId → State} {P : VoiceId → Voice → Prop} {told : VoiceId → Voice → Option ReportKind}
  {asks : Voice → Bool} {left : Voice → Voice}

/-- What a piece that works voice by voice does at one voice. -/
structure QuietsVoice (told : VoiceId → Voice → Option ReportKind) (asks : Voice → Bool) (left : Voice → Voice)
    (s : State) (v : VoiceId) (t : State) : Prop where
  quiets : s.Quiets (told v (s.voice v)).toList (if asks (s.voice v) then 1 else 0) t
  own : t.voice v = left (s.voice v)
  other : ∀ u, u ≠ v → t.voice u = s.voice u

/-- A piece that works voice by voice. -/
theorem State.Quiets.voices (step : ∀ s v, s.streams.Ok → P v (s.voice v) → QuietsVoice told asks left s v (f s v))
    {l : List VoiceId} (once : l.Nodup) {s : State} (h : s.streams.Ok) (hP : ∀ v ∈ l, P v (s.voice v)) :
    s.Quiets (l.filterMap fun v => told v (s.voice v)) (l.countP fun v => asks (s.voice v)) (l.foldl f s) ∧
      ∀ u, (l.foldl f s).voice u = if u ∈ l then left (s.voice u) else s.voice u := by
  induction l generalizing s with
  | nil => exact ⟨.refl h, fun _ => rfl⟩
  | cons v l ih =>
    obtain ⟨new, once⟩ := List.nodup_cons.mp once
    have first := step s v h (hP v List.mem_cons_self)
    have same : ∀ u ∈ l, (f s v).voice u = s.voice u := fun u hu => first.other u fun e => new (e ▸ hu)
    obtain ⟨quiets, after⟩ := ih once first.quiets.blocks fun u hu => same u hu ▸ hP u (List.mem_cons_of_mem v hu)
    have reports : (l.filterMap fun u => told u ((f s v).voice u)) = l.filterMap fun u => told u (s.voice u) :=
      List.filterMap_congr fun u hu => by rw [same u hu]
    have passes : (l.countP fun u => asks ((f s v).voice u)) = l.countP fun u => asks (s.voice u) :=
      List.countP_congr fun u hu => by rw [same u hu]
    rw [reports, passes] at quiets
    refine ⟨?_, fun u => ?_⟩
    · have all := first.quiets.trans quiets
      rw [List.countP_cons, Nat.add_comm, List.filterMap_cons]
      cases ht : told v (s.voice v) with
      | none => rwa [ht] at all
      | some k => rwa [ht] at all
    · rw [List.foldl_cons, after u]
      by_cases e : u = v
      · subst e
        rw [if_neg new, if_pos List.mem_cons_self, first.own]
      · rw [first.other u e]
        simp only [List.mem_cons, e, false_or]

end

/-- What a voice is once its incoming cue is removed, where it has one (R39). -/
def Voice.withoutIncoming (r : Voice) : Voice :=
  if r.incoming.isSome then r.unclaimed else r

theorem Voice.withoutIncoming_current (r : Voice) : r.withoutIncoming.current = r.current := by
  unfold Voice.withoutIncoming
  split <;> rfl

theorem Voice.withoutIncoming_incoming (r : Voice) : r.withoutIncoming.incoming = none := by
  unfold Voice.withoutIncoming
  split
  · rfl
  · rename_i absent
    simpa using absent

/-- The departing cue of a HANDOFF voice keeps its reason, as that of an ENDING one does. -/
theorem Voice.Ok.withoutIncoming_endKind {v : VoiceId} {r : Voice} (ok : r.Ok v) (reason : EndReason) :
    r.withoutIncoming.endKind v reason = r.endKind v reason := by
  unfold Voice.withoutIncoming
  split
  · obtain ⟨c, hc⟩ := Option.isSome_iff_exists.mp ‹_›
    simp [Voice.endKind, Voice.unclaimed, ok.handoff_of_incoming hc]
  · rfl

/-- The removal of the incoming cue of a voice, where it has one. -/
theorem removeIncoming_quiets {s : State} (v : VoiceId) (reason : EndReason) (h : s.streams.Ok) :
    QuietsVoice (fun _ r => r.incoming.map fun c => .cueEnded c.tag reason none) (fun _ => false)
      Voice.withoutIncoming s v (s.removeIncoming v reason) := by
  cases hi : (s.voice v).incoming with
  | none =>
    have same : s.removeIncoming v reason = s := by simp only [State.removeIncoming, hi]
    rw [same]
    exact ⟨by rw [hi]; exact .refl h, by rw [Voice.withoutIncoming, hi]; rfl, fun _ _ => rfl⟩
  | some c =>
    obtain ⟨-, -, own, other, -⟩ := State.removeIncoming_spec hi reason
    exact ⟨by rw [hi]; exact .removeIncoming h hi reason, by rw [own, Voice.withoutIncoming, hi]; rfl, other⟩

/-- The end of the current cue of a voice, where it has one. -/
theorem endAtOnce_quiets {s : State} (v : VoiceId) {reason : EndReason} (notCut : reason ≠ .cut) (h : s.streams.Ok)
    (ok : (s.voice v).Ok v) (hi : (s.voice v).incoming = none) :
    QuietsVoice (fun v r => r.endKind v reason) (fun r => r.current.isSome) (fun _ => Voice.idle) s v
      (s.endAtOnce v reason) := by
  cases hk : (s.voice v).current with
  | none =>
    have same : s.endAtOnce v reason = s := if_neg (by rw [hk]; exact Bool.false_ne_true)
    have idle : s.voice v = Voice.idle := ok.eq_idle (not_not.mp fun busy => by
      have held := ok.current_isSome busy
      rw [hk] at held
      cases held)
    rw [same]
    exact ⟨by rw [Voice.endKind, hk]; exact .refl h, idle, fun _ _ => rfl⟩
  | some k =>
    obtain ⟨own, other⟩ := State.endAtOnce_idle_voice reason hk hi
    exact ⟨by rw [hk]; exact .endAtOnce h hk hi ok notCut, own, other⟩

/-- A quieting up to the end of its cues. -/
def State.cuesQuieted (s : State) (reason : EndReason) : State :=
  let unscheduled := (s.sched.entries.map fun e => e.cue.tag).foldl (fun s t => s.removeEntry t reason) s
  allVoices.foldl (fun s v => s.endAtOnce v reason) (allVoices.foldl (fun s v => s.removeIncoming v reason) unscheduled)

theorem State.quietAll_eq (s : State) (reason : EndReason) :
    s.quietAll reason = (((s.cuesQuieted reason).closeStream 0).closeStream 1).disarmAll := by
  simp only [State.quietAll, State.cuesQuieted, allStreamSlots, List.foldl_cons, List.foldl_nil]

section
variable {s : State} {reason : EndReason} (placed : s.Placed) (h : s.streams.Ok) (notCut : reason ≠ .cut)
include placed h notCut

theorem State.cuesQuieted_spec :
    s.Quiets (s.endings reason) (allVoices.countP fun v => (s.voice v).current.isSome) (s.cuesQuieted reason) ∧
      (s.cuesQuieted reason).sched.entries = [] ∧ ∀ v, (s.cuesQuieted reason).voice v = Voice.idle := by
  have unique : (s.sched.entries.map fun e => e.cue.tag).Nodup :=
    (placed.tags.2.nodup_iff.mpr placed.tags.1).of_append_left
  obtain ⟨-, alloc, entries, -⟩ := State.removeEntries_spec reason (s.sched.entries.map fun e => e.cue.tag) s
  have first := State.Quiets.entries_removed reason s.sched.entries rfl unique h
  have unscheduled := Closed.foldl (P := State.Booked s.sched.entries.length) _ (fun _ t hs => State.Books.removeEntry hs t reason)
    (s.sched.entries.map fun e => e.cue.tag) s placed.booked
  simp only [State.cuesQuieted]
  generalize (s.sched.entries.map fun e => e.cue.tag).foldl (fun s t => s.removeEntry t reason) s = t at *
  have same : ∀ v, t.voice v = s.voice v := fun v => by rw [State.voice, alloc]
  have empty : t.sched.entries = [] := by
    rw [entries, List.filter_eq_nil_iff]
    intro e he
    simpa using ⟨e, he, rfl⟩
  obtain ⟨second, voices⟩ := State.Quiets.voices (P := fun _ _ => True) (fun s v h _ => removeIncoming_quiets v reason h)
    allVoices_nodup first.blocks fun _ _ => trivial
  have booked := Closed.foldl (P := State.Booked s.sched.entries.length) _
    (fun _ v hs => State.Books.removeIncoming hs v reason) allVoices t unscheduled
  generalize allVoices.foldl (fun s v => s.removeIncoming v reason) t = w at *
  have without : ∀ v, w.voice v = (s.voice v).withoutIncoming := fun v => by
    rw [voices, if_pos (mem_allVoices v), same]
  obtain ⟨third, idle⟩ := State.Quiets.voices (P := fun v r => r.Ok v ∧ r.incoming = none)
    (fun s v h hP => endAtOnce_quiets v notCut h hP.1 hP.2) allVoices_nodup second.blocks
    fun v _ => ⟨booked.voices v, without v ▸ Voice.withoutIncoming_incoming _⟩
  refine ⟨?_, ?_, fun v => ?_⟩
  · have all := (first.trans second).trans third
    have incoming : (allVoices.filterMap fun v => (t.voice v).incoming.map fun c => ReportKind.cueEnded c.tag reason none) =
        allVoices.filterMap fun v => (s.voice v).incoming.map fun c => .cueEnded c.tag reason none :=
      List.filterMap_congr fun v _ => by rw [same]
    have current : (allVoices.filterMap fun v => (w.voice v).endKind v reason) =
        allVoices.filterMap fun v => (s.voice v).endKind v reason :=
      List.filterMap_congr fun v _ => by rw [without, (placed.voices v).withoutIncoming_endKind]
    have passes : (allVoices.countP fun v => (w.voice v).current.isSome) =
        allVoices.countP fun v => (s.voice v).current.isSome :=
      List.countP_congr fun v _ => by rw [without, Voice.withoutIncoming_current]
    rw [incoming, current, passes, List.countP_false, Function.const_apply, Nat.zero_add] at all
    exact all
  · exact List.subset_nil.mp (empty ▸ List.Subset.trans third.entries second.entries)
  · rw [idle, if_pos (mem_allVoices v)]

/-- A quieting up to the disarming of the triggers. -/
theorem State.quietAll_spec :
    ∃ t, s.quietAll reason = t.disarmAll ∧
      s.Quiets (s.endings reason) (allVoices.countP fun v => (s.voice v).current.isSome) t ∧ t.sched.entries = [] ∧
      (∀ v, t.voice v = Voice.idle) ∧ ∀ i, t.stream i = none := by
  obtain ⟨cues, entries, idle⟩ := State.cuesQuieted_spec placed h notCut
  refine ⟨_, s.quietAll_eq reason, ?_, ?_, fun v => ?_, fun i => ?_⟩
  · have first := cues.trans (.closeStream cues.blocks 0)
    simpa using first.trans (.closeStream first.blocks 1)
  · simpa using entries
  · simpa [State.voice] using idle v
  · rw [State.closeStream_stream, State.closeStream_stream]
    fin_cases i <;> rfl

end

/-! ### What a quieting leaves alone -/

/-- The steps and the pages of the phrases, the mixer but for its ducking, the reset pin and the straps. -/
structure Settings where
  pool : Vector Page 64
  freePages : List PageId
  build : Option PhraseId
  mixer : Mixer
  inReset : Bool
  straps : Straps

def State.settings (s : State) : Settings :=
  { pool := s.store.pool, freePages := s.store.freePages, build := s.store.build
    mixer := { s.mixer with duckAmount := 0, duckCount := 0 }, inReset := s.inReset, straps := s.straps }

theorem State.putVoice_settings (s : State) (v : VoiceId) (r : Voice) : (s.putVoice v r).settings = s.settings := by
  unfold State.putVoice State.followDuck
  split
  · rfl
  · split <;> rfl

theorem State.closeStream_settings (s : State) (i : StreamSlotId) : (s.closeStream i).settings = s.settings := by
  unfold State.closeStream State.credit
  split
  · split <;> rfl
  · rfl

theorem closed_settings (x : Settings) : Closed fun t => t.settings = x where
  offer _ _ h := h
  sched _ _ h := h
  passes _ _ h := h
  putVoice s v r h := (s.putVoice_settings v r).trans h
  refUp _ _ h := h
  refDown _ _ h := h
  stream _ _ _ _ h := h
  useHead _ _ _ _ _ _ _ h := h
  closeStream s i h := (s.closeStream_settings i).trans h
  triggers _ _ h := h

section
variable {s t : State} (h : t.settings = s.settings)
include h

theorem store_of_settings : t.store = { s.store with slots := t.store.slots } :=
  congrArg (fun x : Settings =>
    { slots := t.store.slots, pool := x.pool, freePages := x.freePages, build := x.build : PhraseStore }) h

theorem mixer_of_settings : t.mixer = { s.mixer with duckAmount := t.mixer.duckAmount, duckCount := t.mixer.duckCount } :=
  congrArg (fun x : Settings => { x.mixer with duckAmount := t.mixer.duckAmount, duckCount := t.mixer.duckCount }) h

end

/-! ### The outcome (R26, R48, R142, R154) -/

/-- With no entry and every voice idle, no cue is live. -/
theorem State.TagsOk.live_empty {s : State} (h : s.TagsOk) (entries : s.sched.entries = []) (idle : ∀ v, s.voice v = Voice.idle) :
    s.sched.live = [] := by
  have nothing : s.heldTags = [] := by
    simp [State.heldTags, entries, idle, Voice.tags, Voice.idle]
  exact List.nil_perm.mp (nothing ▸ h.2)

/-- With no entry and every voice idle, no phrase is named. -/
theorem State.RefsOk.none {s : State} (h : s.RefsOk) (entries : s.sched.entries = []) (idle : ∀ v, s.voice v = Voice.idle)
    (id : PhraseId) : (s.phrase id).refs = 0 := by
  rw [(h id).1]
  simp [entries, idle, Voice.names, Voice.idle]

/-- With both streams closed, every block is free. -/
theorem StreamUnit.Ok.all_free {u : StreamUnit} (h : u.Ok) (closed : ∀ i : StreamSlotId, u.slots[i] = none) :
    u.freeBlocks.Perm allBlocks := by
  have perm := ((u.ok_iff 0).mp h).perm
  rw [closed, closed] at perm
  simpa [filledOf] using perm

/-- The quieting of a part whose cues and blocks are in order. -/
theorem State.quietAll_quieted {s : State} {reason : EndReason} (placed : s.Placed) (h : s.streams.Ok)
    (notCut : reason ≠ .cut) : s.Quieted reason (s.quietAll reason) := by
  have settings : (s.quietAll reason).settings = s.settings := (closed_settings s.settings).quietAll s reason rfl
  have after : (s.quietAll reason).Placed := (State.Books.quietAll placed.booked reason).placed
  obtain ⟨t, e, quiets, entries, idle, closed⟩ := State.quietAll_spec placed h notCut
  rw [e] at settings after ⊢
  have perm : t.streams.freeBlocks.Perm allBlocks := quiets.blocks.all_free closed
  have count : t.freeCount = 32 := perm.length_eq
  obtain ⟨time, pitchMap, -, phrases⟩ := Basis.mk.inj (basis_of_ground quiets.ground)
  obtain ⟨-, triggers, link, pending, counter⟩ := Ground.mk.inj quiets.ground
  refine
    { schedule := ?schedule, voices := idle, passes := quiets.passes, phrases := fun id => ?phrase
      steps := store_of_settings settings, closed := closed, blocks := perm, disarmed := fun i => ?disarmed
      lines := by rw [← triggers]; exact ⟨rfl, rfl⟩
      mixer := mixer_of_settings settings, reports := ?reports
      rest := ⟨time, pitchMap, link, congrArg Settings.inReset settings, congrArg Settings.straps settings, pending⟩ }
  case schedule =>
    have live : t.sched.live = [] := after.tags.live_empty entries idle
    change t.sched = { entries := [], live := [], counter := s.sched.counter }
    rw [← entries, ← live, ← counter]
  case phrase =>
    have same : (t.phrase id).uncounted = (s.phrase id).uncounted := congrFun phrases id
    have unused : (t.phrase id).refs = 0 := after.refs.none entries idle id
    rw [← PhraseSlot.uncounted, ← same, PhraseSlot.uncounted, ← unused]
    rfl
  case disarmed => simp [State.disarmAll]
  case reports =>
    obtain ⟨first, later, n, told, low, high, reports⟩ := quiets.reports
    have credit : creditAt n s.freeCount t.freeCount = if s.freeCount < 8 then [.streamCredit n] else [] :=
      if_congr (and_iff_left (by omega)) rfl rfl
    refine ⟨first.length, n, low, high, ?_⟩
    rw [← told, List.take_left, List.drop_left, ← credit]
    exact reports

end Sys2Proof.Machine
end

section
/-! SYSTEM.RESET, and the timers of the link (R167 to R169, R178, R179). -/

namespace Sys2Proof.Machine

theorem ownReset_audio (rest : List Byte) (s : State) : ownReset (0 :: rest) s = (s.quietAll .reset, answerOk []) :=
  if_pos rfl

theorem ownReset_full (rest : List Byte) (s : State) : ownReset (1 :: rest) s = (s, answerOk []) :=
  if_neg (show (1 : Byte) ≠ 0 by decide)

theorem exec_systemReset {c : Instr} {s : State} {num : Byte} {f : List Byte} (hq : requestOf c = some (.systemReset, num, f))
    (h : s.Passes .systemReset num f) :
    exec c s = .next (State.answered (ownReset f s.heard).1 .systemReset num f (ownReset f s.heard).2) :=
  exec_passes hq h rfl

/-- Settles O14: AUDIO is the quieting of the part, FULL its answer alone. -/
theorem systemResetQuiets : Obligations.SystemResetQuiets := by
  refine ⟨fun s num rest passes sound placed => ⟨s.heard.quietAll .reset, ?quieted, ?audio⟩, fun s num rest passes => ?full⟩
  case quieted =>
    have heard : s.heard.Placed := ⟨placed.voices, placed.tags, placed.refs⟩
    exact State.quietAll_quieted heard sound.streams (by decide)
  case audio =>
    rw [exec_systemReset rfl passes, ownReset_audio]
    rfl
  case full =>
    rw [exec_systemReset rfl passes, ownReset_full]
    rfl

/-- A stall under SILENCE quiets the part (R168). -/
theorem State.stall_quieted {s : State} (silence : s.link.orphan = .silence) (sound : s.Sound) (placed : s.Placed) :
    State.Quieted { s with link := { s.link with session := .stalled } } .linkLost s.stall := by
  have stall : s.stall = State.quietAll { s with link := { s.link with session := .stalled } } .linkLost := by
    rw [State.stall, silence]
  rw [stall]
  exact State.quietAll_quieted ⟨placed.voices, placed.tags, placed.refs⟩ sound.streams (by decide)

theorem State.stall_continue {s : State} (h : s.link.orphan = .continue) :
    s.stall = { s with link := { s.link with session := .stalled } } := by
  rw [State.stall, h]

/-- Settles O20: by what each event does at its time, and the orphan policy. -/
theorem timersGoBackAndStall : Obligations.TimersGoBackAndStall := by
  have expired {s : State} {r : Report} {rest : List Report} {t : Tick} (opened : s.link.session = .opened)
      (queue : s.reports.queue = r :: rest) (sent : r.lastSent = some t) (notDue : r.frameDue = false)
      (offLine : r.onLine = false) (late : 250 ≤ (s.time.tick - t).toNat) : s.timerDue = true :=
    s.timerDue_iff.mpr ⟨opened, r, rest, t, queue, notDue, offLine, sent, late⟩
  refine ⟨fun s r rest t hr opened queue sent notDue offLine late few => ?goBack, fun s c hr opened due => ?stall⟩
  case goBack =>
    have due := expired opened queue sent notDue offLine late
    have retries : s.reports.retry < Config.maxRetries := few
    refine (event_stands s .retransmit hr due).trans ?_
    rw [State.carry, State.retransmit, if_pos due, if_pos retries]
    rfl
  case stall =>
    have stalls : exec c s = .next s.stall.chooseFrame := by
      obtain ⟨rfl, timed, reached⟩ | ⟨rfl, retry, r, rest, t, queue, sent, notDue, offLine, late⟩ := due
      · have silent : s.link.silenceDue = true := s.link.silenceDue_iff.mpr ⟨opened, timed, reached⟩
        refine (event_stands s .silence hr silent).trans ?_
        rw [State.carry, State.silence, if_pos silent]
      · have due := expired opened queue sent notDue offLine late
        refine (event_stands s .retransmit hr due).trans ?_
        rw [State.carry, State.retransmit, if_pos due, if_neg (by rw [retry]; decide)]
    exact ⟨fun goesOn => by rw [stalls, State.stall_continue goesOn],
      fun silence sound placed => ⟨s.stall, State.stall_quieted silence sound placed, stalls⟩⟩

end Sys2Proof.Machine
end

section
/-! What becomes of an offered report: dropped, appended, or counted as lost (R174, R176). -/

namespace Sys2Proof.Machine

theorem Report.isLost_iff (r : Report) : r.isLost = true ↔ ∃ n, r.kind = .reportsLost n := by
  unfold Report.isLost
  cases r.kind <;> simp

theorem Report.countUp_lost {r : Report} {n : Nat} (h : r.kind = .reportsLost n) :
    r.countUp = { r with kind := .reportsLost (min (n + 1) 65535) } := by
  rw [Report.countUp, h]

section
variable {u : ReportUnit}

/-- The newest report is an unsent REPORTS_LOST (R176). -/
theorem ReportUnit.merges_iff :
    u.merges = true ↔ ∃ r, u.queue.getLast? = some r ∧ r.isLost = true ∧ r.sent = false := by
  unfold ReportUnit.merges
  cases u.queue.getLast? <;> simp

theorem ReportUnit.merges_newest {front : List Report} {r : Report} (h : u.queue = front ++ [r]) :
    u.merges = (r.isLost && !r.sent) := by
  rw [ReportUnit.merges, h, List.getLast?_concat]

section
variable {kind : ReportKind} {tick : Tick}

theorem ReportUnit.offer_unsubscribed (h : u.subscribed kind = false) : u.offer kind tick = u := by
  simp [ReportUnit.offer, h]

theorem ReportUnit.offer_room (h : u.subscribed kind = true) (room : u.queue.length < 31) :
    u.offer kind tick = u.append kind tick := by
  rw [ReportUnit.offer, if_pos h, ReportUnit.takeIn, if_pos (show u.queue.length < Config.reportRoom from room)]

theorem ReportUnit.offer_counted {front : List Report} {r : Report} {n : Nat} (h : u.subscribed kind = true)
    (full : 31 ≤ u.queue.length) (newest : u.queue = front ++ [r]) (lost : r.kind = .reportsLost n) (unsent : r.sent = false) :
    u.offer kind tick = { u with queue := front ++ [{ r with kind := .reportsLost (min (n + 1) 65535) }] } := by
  have merges : u.merges = true := by
    rw [ReportUnit.merges_newest newest, r.isLost_iff.mpr ⟨n, lost⟩, unsent]
    rfl
  have noRoom : ¬u.queue.length < Config.reportRoom := Nat.not_lt.mpr full
  rw [ReportUnit.offer, if_pos h, ReportUnit.takeIn, if_neg noRoom, if_pos merges, newest, List.dropLast_concat,
    List.getLast?_concat, Option.map_some, Report.countUp_lost lost]
  rfl

theorem ReportUnit.offer_begins (h : u.subscribed kind = true) (full : u.queue.length = 31) (fresh : u.merges = false) :
    u.offer kind tick = u.append (.reportsLost 1) tick := by
  have noRoom : ¬u.queue.length < Config.reportRoom := Nat.not_lt.mpr full.ge
  rw [ReportUnit.offer, if_pos h, ReportUnit.takeIn, if_neg noRoom, if_neg (Bool.eq_false_iff.mp fresh),
    if_pos (show u.queue.length = Config.reportRoom from full)]

/-- All that an offer can do to the queue (R174, R176). -/
theorem ReportUnit.offer_cases (u : ReportUnit) (kind : ReportKind) (tick : Tick) :
    u.offer kind tick = u ∨
    (u.queue.length < 31 ∧ u.offer kind tick = u.append kind tick) ∨
    (∃ front r n, u.queue = front ++ [r] ∧ r.kind = .reportsLost n ∧
      u.offer kind tick = { u with queue := front ++ [{ r with kind := .reportsLost (min (n + 1) 65535) }] }) ∨
    (u.queue.length = 31 ∧ u.offer kind tick = u.append (.reportsLost 1) tick) := by
  cases subscribed : u.subscribed kind with
  | false => exact .inl (ReportUnit.offer_unsubscribed subscribed)
  | true =>
    by_cases room : u.queue.length < 31
    · exact .inr (.inl ⟨room, ReportUnit.offer_room subscribed room⟩)
    · have full : 31 ≤ u.queue.length := Nat.not_lt.mp room
      cases merges : u.merges with
      | true =>
        obtain ⟨r, last, lost, unsent⟩ := ReportUnit.merges_iff.mp merges
        obtain ⟨n, kind⟩ := r.isLost_iff.mp lost
        obtain ⟨front, newest⟩ := List.getLast?_eq_some_iff.mp last
        exact .inr (.inr (.inl ⟨front, r, n, newest, kind, ReportUnit.offer_counted subscribed full newest kind unsent⟩))
      | false =>
        by_cases last : u.queue.length = 31
        · exact .inr (.inr (.inr ⟨last, ReportUnit.offer_begins subscribed last merges⟩))
        · left
          have more : u.queue.length ≠ Config.reportRoom := last
          have noRoom : ¬u.queue.length < Config.reportRoom := room
          simp [ReportUnit.offer, subscribed, ReportUnit.takeIn, noRoom, merges, more]

end

end

/-- Settles O16: by the flag of the kind, the room in the queue and the newest report. -/
theorem offersAreAdmitted : Obligations.OffersAreAdmitted := by
  refine ⟨fun _ _ => rfl, fun u kind tick => ⟨fun clear => ?clear, fun subscribed room => ?room,
    fun front r n subscribed full newest lost unsent => ?counted, fun front r subscribed full newest other => ?begins⟩⟩
  case clear => exact ReportUnit.offer_unsubscribed (Bool.eq_false_iff.mpr clear)
  case room => exact ReportUnit.offer_room subscribed room
  case counted => exact ReportUnit.offer_counted subscribed full newest lost unsent
  case begins =>
    refine ReportUnit.offer_begins subscribed full (Bool.eq_false_iff.mpr fun merges => ?_)
    rw [ReportUnit.merges_newest newest, Bool.and_eq_true, Bool.not_eq_true', Report.isLost_iff] at merges
    obtain ⟨⟨n, lost⟩, unsent⟩ := merges
    obtain notLost | sent := other
    · exact notLost n lost
    · exact Bool.false_ne_true (unsent.symm.trans sent)

end Sys2Proof.Machine
end

section
/-! The order of the report queue, which every step keeps (R173, R176, R177, R179 to R181). -/

namespace Sys2Proof.Machine

/-! ### What the order of the queue rests on -/

/-- What the order of the queue reads of a report: its sequence, whether it was sent, and whether it counts losses. -/
def Report.mark (r : Report) : Byte × Bool × Bool :=
  (r.sequence, r.sent, r.isLost)

theorem Report.mark_lineEnded (r : Report) (now : Tick) : (r.lineEnded now).mark = r.mark := by
  unfold Report.lineEnded
  split <;> rfl

theorem Report.mark_goBack (r : Report) : r.goBack.mark = r.mark := by
  unfold Report.goBack
  split <;> rfl

theorem byteOf_inj {m n : Nat} (hm : m < 256) (hn : n < 256) (h : byteOf m = byteOf n) : m = n := by
  have same := congrArg BitVec.toNat h
  rwa [BitVec.toNat_ofNat, BitVec.toNat_ofNat, Nat.mod_eq_of_lt hm, Nat.mod_eq_of_lt hn] at same

theorem ReportUnit.merges_marks (u : ReportUnit) :
    u.merges = (u.queue.map Report.mark).getLast?.any fun m => m.2.2 && !m.2.1 := by
  unfold ReportUnit.merges
  rw [List.getLast?_map]
  cases u.queue.getLast? <;> rfl

section
variable {u : ReportUnit}

/-- The place a report is handed over from: the first of the four oldest whose frame is due (R177). -/
theorem ReportUnit.handOver_place {k : Nat} {r : Report} (h : u.handOver = some (k, r)) :
    ∃ inside : k < u.queue.length, k < 4 ∧ r = u.queue[k].handed ∧
      ∀ (j : Nat) (hj : j < k), u.queue[j].frameDue = false := by
  obtain ⟨i, first, e⟩ := Option.bind_eq_some_iff.mp h
  obtain ⟨q, at_i, e⟩ := Option.map_eq_some_iff.mp e
  obtain ⟨rfl, rfl⟩ := Prod.mk.inj e
  obtain ⟨inside, rfl⟩ := List.getElem?_eq_some_iff.mp at_i
  obtain ⟨early, -, before⟩ := List.findIdx?_eq_some_iff_getElem.mp first
  refine ⟨inside, (lt_min_iff.mp (List.length_take ▸ early)).1, rfl, fun j hj => ?_⟩
  simpa using before j hj

/-! ### What each update of the queue keeps -/

variable (h : u.Ok)
include h

theorem ReportUnit.Ok.waits : u.Waits := by
  obtain ⟨-, -, -, -, waits, -⟩ := h
  exact waits

theorem ReportUnit.Ok.retries : u.retry ≤ 3 := by
  obtain ⟨-, -, -, -, -, retries⟩ := h
  exact retries

/-- Two reports of the queue have different sequences (R173). -/
theorem ReportUnit.Ok.sequence_inj {j k : Nat} (hj : j < u.queue.length) (hk : k < u.queue.length)
    (same : u.queue[j].sequence = u.queue[k].sequence) : j = k := by
  obtain ⟨numbered, short, -⟩ := h
  have behind : byteOf (u.queue.length - j) = byteOf (u.queue.length - k) := by
    have both := (numbered j hj).trans (numbered k hk).symm
    rwa [same, BitVec.add_right_inj] at both
  have := byteOf_inj (by omega) (by omega) behind
  omega

/-- Only the marks, the frames due and the retry count are read. -/
theorem ReportUnit.Ok.congr {queue : List Report} {retry : Nat} (same : queue.map Report.mark = u.queue.map Report.mark)
    (waits : ∀ r ∈ queue, r.Waits) (retries : retry ≤ 3) : ReportUnit.Ok { u with queue := queue, retry := retry } := by
  obtain ⟨numbered, short, full, ⟨n, few, inFlight⟩, -, -⟩ := h
  have length : queue.length = u.queue.length := by simpa using congrArg List.length same
  have mark (k : Nat) (hk : k < queue.length) : queue[k].mark = (u.queue[k]'(length ▸ hk)).mark := by
    simpa [hk, length ▸ hk] using congrArg (fun l => l[k]?) same
  refine ⟨fun k hk => ?_, length.trans_le short, fun all => ?_, ⟨n, few, fun k hk => ?_⟩, waits, retries⟩
  · have sequence : queue[k].sequence = (u.queue[k]'(length ▸ hk)).sequence := congrArg Prod.fst (mark k hk)
    simp only [sequence, length]
    exact numbered k _
  · rw [ReportUnit.merges_marks, same, ← u.merges_marks]
    exact full (length ▸ all)
  · exact (congrArg (fun m => m.2.1) (mark k hk)).trans (inFlight k (length ▸ hk))

theorem ReportUnit.Ok.append (kind : ReportKind) (tick : Tick) (room : u.queue.length < 32)
    (last : u.queue.length = 31 → ∃ n, kind = .reportsLost n) : (u.append kind tick).Ok := by
  obtain ⟨numbered, short, -, ⟨n, few, inFlight⟩, waits, retries⟩ := h
  have length : (u.append kind tick).queue.length = u.queue.length + 1 := List.length_append
  refine ⟨fun k hk => ?_, length.trans_le room, fun all => ?_, ⟨min n u.queue.length, by omega, fun k hk => ?_⟩,
    ReportUnit.Waits.append waits kind tick, retries⟩
  · rw [length] at hk ⊢
    obtain old | rfl := Nat.lt_succ_iff_lt_or_eq.mp hk
    · simp only [ReportUnit.append, List.getElem_append_left old]
      rw [← numbered k old, BitVec.add_assoc, Nat.sub_add_comm old.le]
      exact congrArg _ (BitVec.ofNat_add _ 1)
    · simp only [ReportUnit.append, List.getElem_concat_length, Report.fresh, Nat.add_sub_cancel_left]
      rfl
  · obtain ⟨m, rfl⟩ := last (by omega)
    exact ReportUnit.merges_newest (u := u.append (.reportsLost m) tick) rfl
  · rw [length] at hk
    obtain old | rfl := Nat.lt_succ_iff_lt_or_eq.mp hk
    · simp [ReportUnit.append, List.getElem_append_left old, inFlight k old, old]
    · simp [ReportUnit.append, Report.fresh]

theorem ReportUnit.Ok.offer (kind : ReportKind) (tick : Tick) : (u.offer kind tick).Ok := by
  obtain e | ⟨room, e⟩ | ⟨front, r, n, newest, lost, e⟩ | ⟨full, e⟩ := u.offer_cases kind tick
  · rwa [e]
  · rw [e]
    exact h.append kind tick (by omega) (by omega)
  · have waits : (u.offer kind tick).Waits := h.waits.offer kind tick
    rw [e] at waits ⊢
    exact h.congr (by simp [newest, Report.mark, Report.isLost, lost]) waits h.retries
  · rw [e]
    exact h.append _ tick (by omega) fun _ => ⟨1, rfl⟩

/-- Handing over keeps the reports in flight the oldest: those before the first frame due were all sent. -/
theorem ReportUnit.Ok.handOver {k : Nat} {r : Report} (e : u.handOver = some (k, r)) :
    ReportUnit.Ok { u with queue := u.queue.set k r } := by
  obtain ⟨numbered, short, full, ⟨n, few, inFlight⟩, waits, retries⟩ := h
  have waits' := ReportUnit.Waits.handOver waits k e
  obtain ⟨inside, oldest, rfl, before⟩ := ReportUnit.handOver_place e
  have next : k ≤ n := by
    by_contra! later
    have notSent : u.queue[n].sent = false := by simp [inFlight]
    have due := waits _ (List.getElem_mem _) notSent
    exact Bool.false_ne_true ((before n later).symm.trans due)
  refine ⟨fun j hj => ?_, List.length_set.trans_le short, fun all => ?_, ⟨max n (k + 1), by omega, fun j hj => ?_⟩, waits',
    retries⟩
  · rw [List.length_set] at hj
    simp only [List.getElem_set, List.length_set]
    rw [← numbered j hj]
    split
    · next same => subst same; rfl
    · rfl
  · rw [List.length_set] at all
    obtain ⟨q, last, lost⟩ := ReportUnit.merges_iff.mp (full all)
    refine ReportUnit.merges_iff.mpr ⟨q, ?_, lost⟩
    rw [List.getLast?_eq_getElem?, List.length_set, List.getElem?_set_ne (by omega), ← List.getLast?_eq_getElem?, last]
  · rw [List.length_set] at hj
    simp only [List.getElem_set]
    split
    · next same => subst same; simp [Report.handed]
    · rw [inFlight j hj, decide_eq_decide]
      omega

theorem ReportUnit.Ok.renumber : u.renumber.Ok := by
  obtain ⟨-, short, full, -⟩ := h
  have length : u.renumber.queue.length = u.queue.length := List.length_mapIdx
  refine ⟨fun k hk => ?_, length.trans_le short, fun all => ?_, ⟨0, by omega, fun k hk => ?_⟩, u.renumber_waits, Nat.zero_le 3⟩
  · rw [length] at hk ⊢
    simp only [ReportUnit.renumber, List.getElem_mapIdx, Report.renumber, ← BitVec.ofNat_add, Nat.add_sub_cancel' hk.le]
  · obtain ⟨q, last, lost, -⟩ := ReportUnit.merges_iff.mp (full (length ▸ all))
    refine ReportUnit.merges_iff.mpr ⟨q.renumber (u.queue.length - 1), ?_, lost, rfl⟩
    rw [List.getLast?_eq_getElem?, length, ReportUnit.renumber, List.getElem?_mapIdx, ← List.getLast?_eq_getElem?, last]
    rfl
  · simp [ReportUnit.renumber, Report.renumber]

theorem ReportUnit.Ok.retire {k : Nat} (retires : 0 < k) :
    ReportUnit.Ok { u with queue := u.queue.drop k, retry := 0 } := by
  obtain ⟨numbered, short, -, ⟨n, few, inFlight⟩, waits, -⟩ := h
  refine ⟨fun j hj => ?_, ?_, fun all => ?_, ⟨n - k, by omega, fun j hj => ?_⟩, fun r hr => waits r (List.mem_of_mem_drop hr),
    Nat.zero_le 3⟩
  · rw [List.length_drop] at hj ⊢
    simp only [List.getElem_drop]
    rw [Nat.sub_sub]
    exact numbered (k + j) (by omega)
  · rw [List.length_drop]; omega
  · rw [List.length_drop] at all; omega
  · rw [List.length_drop] at hj
    simp only [List.getElem_drop]
    rw [inFlight (k + j) (by omega), decide_eq_decide]
    omega

theorem ReportUnit.Ok.goBack (few : u.retry < 3) : u.goBack.Ok :=
  h.congr (by simp [Function.comp_def, Report.mark_goBack])
    (h.waits.map fun _ => Report.Waits.goBack) few

theorem ReportUnit.Ok.lineEnded (now : Tick) :
    ReportUnit.Ok { u with queue := u.queue.map (Report.lineEnded now) } :=
  h.congr (by simp [Function.comp_def, Report.mark_lineEnded])
    (h.waits.map fun _ hr => hr.lineEnded now) h.retries

theorem ReportUnit.Ok.emptied : ReportUnit.Ok { u with queue := [] } := by
  obtain ⟨-, -, -, -, -, retries⟩ := h
  exact ⟨nofun, Nat.zero_le 32, nofun, ⟨0, Nat.zero_le 4, nofun⟩, nofun, retries⟩

end

/-! ### What every step keeps -/

theorem ownAck_ok {s : State} (h : s.reports.Ok) (f : List Byte) : (ownAck f s).1.reports.Ok := by
  unfold ownAck
  dsimp only
  split
  · exact h.retire ‹_›
  · split <;> exact h

theorem chooseFrame_reports_ok {s : State} (h : s.reports.Ok) : s.chooseFrame.reports.Ok := by
  obtain e | ⟨p, rest, -, -, e⟩ | ⟨k, r, -, -, -, -, -, begun, e⟩ := chooseFrame_cases s <;> rw [e]
  · exact h
  · exact h
  · exact h.handOver begun

theorem reportSent_reports_ok {s : State} (h : s.reports.Ok) : s.reportSent.reports.Ok := by
  unfold State.reportSent
  split
  · exact h.lineEnded s.now
  · exact h

/-- A close offers a STREAM_CREDIT at most (R139). -/
theorem closeStream_reports_ok {s : State} (h : s.reports.Ok) (i : StreamSlotId) : (s.closeStream i).reports.Ok := by
  unfold State.closeStream State.credit
  split
  · split
    · exact h.offer _ _
    · exact h
  · exact h

/-- Each update of a command keeps the order of the queue. -/
theorem kept_reportOrder : Kept fun s => s.reports.Ok where
  offer s k h := h.offer k s.now
  sched _ _ h := h
  passes _ _ h := h
  putVoice _ _ _ h := by rw [State.putVoice_reports]; exact h
  refUp _ _ h := h
  refDown _ _ h := h
  stream _ _ _ _ h := h
  useHead _ _ _ _ _ _ _ h := h
  closeStream _ i h := closeStream_reports_ok h i
  triggers _ _ h := h
  chooseFrame _ h := chooseFrame_reports_ok h
  replyLeft _ h := h
  reportSent _ h := reportSent_reports_ok h
  hold _ _ h := h
  countDiscard _ h := h
  gapZero _ h := h
  heard _ h := h
  overrun _ h := h
  again _ _ _ _ _ _ _ h := h
  reply _ _ _ _ _ _ h := h
  stalled _ h := h
  goBack _ few h := h.goBack few
  internalEdge _ _ h := h
  syncEdge _ _ h := h
  move _ h := h
  loss _ _ h := h
  duckMove _ h := h
  output _ _ h := h
  clockVoices _ h := h
  advanced _ _ h := h
  powerOn _ _ := ReportUnit.afterReset_ok
  resetKept _ _ _ _ := ReportUnit.afterReset_ok
  softAtReplyEnd _ _ := ReportUnit.afterReset_ok
  sampleStraps _ _ h := h
  takeReset _ h := h.emptied
  pending _ _ h := h
  linkOpen _ _ _ h := h.renumber
  select _ _ h := h
  ack f _ h := ownAck_ok h f
  begin f s h := by obtain ⟨x, e⟩ := ownBegin_writes f s; rw [e]; exact h
  add f s h := by obtain ⟨x, e⟩ := ownAdd_writes f s; rw [e]; exact h
  finish f s h := by obtain ⟨x, e⟩ := ownEnd_writes f s; rw [e]; exact h
  drop f s h := by obtain ⟨x, e⟩ := ownDrop_writes f s; rw [e]; exact h
  mapWrite f s h := by
    unfold ownMapWrite
    dsimp only
    split
    · exact h
    · split <;> exact h
  mapRestore _ _ h := by unfold ownMapRestore; exact h
  outputSet f s _ h := by rw [ownOutputSet_eq]; exact h
  timeSet _ _ _ _ h := h
  barRestart _ h := h
  open_ f s _ h := by obtain ⟨x, e⟩ := ownOpen_writes f s; rw [e]; exact h
  stock _ _ _ _ _ _ _ _ _ _ h := h

/-- Settles O58: every update keeps the order of the queue, so every step does. -/
theorem stepsKeepReportOrder : Obligations.StepsKeepReportOrder :=
  fun s t h e => kept_reportOrder.step s t e h

end Sys2Proof.Machine
end

section
/-! REPORT.SELECT and REPORT.ACK (R175, R180). -/

namespace Sys2Proof.Machine

/-- The mask that REPORT.SELECT leaves: the 12 named flags as given, that of REPORTS_LOST set, no other (R175). -/
theorem selectedMask_bit (given : Half) (k : Nat) :
    ((given &&& Config.namedFlags) ||| Config.lostFlag).getLsbD k =
      if k < 12 then given.getLsbD k else decide (k = 12) := by
  by_cases inside : k < 16
  · have named : Config.namedFlags.getLsbD k = decide (k < 13) := by decide +revert
    have lost : Config.lostFlag.getLsbD k = decide (k = 12) := by decide +revert
    rw [BitVec.getLsbD_or, BitVec.getLsbD_and, named, lost]
    obtain below | rfl | above := lt_trichotomy k 12
    · simp [below, below.ne, below.trans (Nat.lt_succ_self 12)]
    · simp
    · simp [above.ne', above.not_gt, Nat.not_lt.mpr (Nat.succ_le_of_lt above)]
  · have outside : 16 ≤ k := Nat.not_lt.mp inside
    rw [BitVec.getLsbD_of_ge _ _ outside, if_neg (by omega)]
    exact (decide_eq_false (by omega)).symm

section
variable {u : ReportUnit} {n : Byte}

theorem ReportUnit.retires_inFlight (h : u.Ok) {k : Nat} (hk : k < u.queue.length) (sent : u.queue[k].sent = true)
    (sequence : u.queue[k].sequence = n) : u.retires n = k + 1 := by
  have first : u.queue.findIdx? (fun r => r.sent && r.sequence == n) = some k := by
    refine List.findIdx?_eq_some_iff_getElem.mpr ⟨hk, by simp [sent, sequence], fun j hj found => ?_⟩
    rw [Bool.and_eq_true, beq_iff_eq] at found
    exact hj.ne (h.sequence_inj (hj.trans hk) hk (found.2.trans sequence.symm))
  rw [ReportUnit.retires, first]

theorem ReportUnit.retires_none (h : ∀ r ∈ u.queue, r.sent = true → r.sequence ≠ n) : u.retires n = 0 := by
  have nothing : u.queue.findIdx? (fun r => r.sent && r.sequence == n) = none :=
    List.findIdx?_eq_none_iff.mpr fun r hr => by
      by_cases sent : r.sent = true
      · simp [h r hr sent]
      · simp [sent]
  rw [ReportUnit.retires, nothing]

end

section
variable {s : State} {f : List Byte}

theorem ownAck_retires {k : Nat} (h : s.reports.retires (u8 f 0) = k + 1) :
    ownAck f s =
      ({ s with reports := { s.reports with queue := s.reports.queue.drop (k + 1), retry := 0 } },
        answerOk [byteOf (k + 1), byteOf (s.reports.queue.length - (k + 1)), s.reports.nextSequence]) := by
  simp only [ownAck, h, Nat.succ_pos, if_true, List.length_drop]

theorem ownAck_behind (h : s.reports.retires (u8 f 0) = 0) :
    ownAck f s =
      (s,
        if 1 ≤ (s.reports.headSequence - u8 f 0).toNat ∧ (s.reports.headSequence - u8 f 0).toNat ≤ 128 then
          answerOk [0, byteOf s.reports.queue.length, s.reports.nextSequence]
        else badParam 1) := by
  simp only [ownAck, h, lt_irrefl, if_false, within, Bool.and_eq_true, decide_eq_true_eq]
  split <;> rfl

end

theorem exec_reportAck {s : State} {num : Byte} {f : List Byte} (h : s.Passes .reportAck num f) :
    exec (.reportAck num f) s = .next (State.answered (ownAck f s.heard).1 .reportAck num f (ownAck f s.heard).2) :=
  exec_passes rfl h rfl

/-- Settles O15: SELECT by the bits of the mask, ACK by whether an in-flight report has the sequence. -/
theorem reportsAreSelectedAndAcked : Obligations.ReportsAreSelectedAndAcked := by
  refine ⟨fun s num f passes => ⟨_, selectedMask_bit (u16 f 0), ?select⟩, fun s num f passes ok =>
    ⟨fun k hk sent sequence => ?inFlight, fun other => ?behind⟩⟩
  case select => exact exec_passes rfl passes rfl
  case inFlight =>
    rw [exec_reportAck passes, ownAck_retires (s := s.heard) (ReportUnit.retires_inFlight ok hk sent sequence)]
    rfl
  case behind =>
    rw [exec_reportAck passes, ownAck_behind (s := s.heard) (ReportUnit.retires_none other)]
    rfl

end Sys2Proof.Machine
end

section
/-! The bodies of the thirteen report kinds (R190, 11.2). -/

namespace Sys2Proof.Machine

/-- Settles O17, by the kind: its code, the tick and its fields are written as the table of R190 lists them; the voice
of CUE_ENDED is the one field that may name none. -/
theorem reportBodiesAreLaidOut : Obligations.ReportBodiesAreLaidOut := by
  rintro ⟨sequence, kind, tick, sent, frameDue, lastSent, onLine⟩
  cases kind with
  | cueEnded tag reason voice =>
    cases voice with
    | none => rfl
    | some v => rfl
  | _ => rfl

end Sys2Proof.Machine
end

section
/-! The queue of waiting commands (log entry 4). -/

namespace Sys2Proof.Machine

/-- Settles O1: with a command in front, the queue is the second case of `step`, which is the law `step_cons`. -/
theorem stepTakesFront : Obligations.StepTakesFront :=
  fun s c rest front => step_cons s c rest front

end Sys2Proof.Machine
end
